-- ==== Sys2Proof/Word.lean ====
section
/-! DEFINITION. The bit-vector types of the bridge block (00_scope R10): plain abbreviations, no arithmetic of their own. -/

namespace Sys2Proof

/-- One byte of the serial stream (20_memory R65), and the 8-bit OP and IDX fields (30_encoding R80). -/
abbrev Byte := BitVec 8

/-- One GPIO register, one bit (10_state R21). -/
abbrev Bit := BitVec 1

/-- One LED brightness, 4 bits (00_scope R7 `LEVEL_BITS`). -/
abbrev Level := BitVec 4

/-- The DATA field of a command word and the 32-bit responses (30_encoding R80, R85); binary32 bits. -/
abbrev Word32 := BitVec 32

/-- A command word (30_encoding R80); binary64 bits. -/
abbrev Word64 := BitVec 64

end Sys2Proof
end

