-- ==== Sys2Proof/Syntax.lean ====
section
/-! DEFINITION. Ports, opcodes, faults, commands and instructions, as data: one constructor of `Instr` for each row of spec/opcode_table.json. -/

namespace Sys2Proof

/-- The two command ports (60_exceptions R260, R262). -/
inductive Port where
  /-- `H`, used by the host. -/
  | host
  /-- `F`, used by the firmware engine. -/
  | firmware
  deriving DecidableEq, Repr

/-- The fifteen defined opcodes (30_encoding R82). -/
inductive Opcode where
  | setGpio | getGpio | setAdc | getAdc | getDac | checkEdge | advance | nextFrame
  | fwSetGpio | fwGetGpio | fwGetAdc | fwSetDac | fwGetDac | fwPushByte | fwReadTime
  deriving DecidableEq, Repr

/-- The faults of the block (60_exceptions R251). -/
inductive BlockFault where
  /-- Code 1 (R252). -/
  | illegalCommand
  /-- Code 2 (R253). -/
  | wrongPort
  /-- Code 3 (R254). -/
  | indexOutOfRange
  /-- Code 4 (R255). -/
  | valueOutOfRange
  /-- Code 5 (R256). -/
  | unwatchedLine
  /-- Code 6 (R257). -/
  | nonFiniteElapsed
  /-- Code 7 (R258). -/
  | queueOverflow
  deriving DecidableEq, Repr

/-- One command presented on a port: the port is not part of the word (30_encoding R80, R81). -/
structure Command where
  port : Port
  word : Word64
  deriving DecidableEq, Repr

/-- The instructions: the fifteen commands, with the fields IDX (`line`, `channel`) and DATA (`value`, `elapsed`, `byte`) as the
word carries them, and the two units of the serial stream (30_encoding R91, R94). The index and value checks of R89 are made by
the meanings (log entry 5). -/
inductive Instr where
  /-- SET_GPIO (R111). -/
  | setGpio (line : Byte) (value : Word32)
  /-- GET_GPIO (R112). -/
  | getGpio (line : Byte)
  /-- SET_ADC (R113). -/
  | setAdc (channel : Byte) (value : Word32)
  /-- GET_ADC (R114). -/
  | getAdc (channel : Byte)
  /-- GET_DAC (R115). -/
  | getDac (channel : Byte)
  /-- CHECK_EDGE (R161). -/
  | checkEdge (line : Byte)
  /-- ADVANCE (R141); `elapsed` is the bits of a binary32 number of seconds. -/
  | advance (elapsed : Word32)
  /-- NEXT_FRAME (R182). -/
  | nextFrame
  /-- FW_SET_GPIO (R116). -/
  | fwSetGpio (line : Byte) (value : Word32)
  /-- FW_GET_GPIO (R117). -/
  | fwGetGpio (line : Byte)
  /-- FW_GET_ADC (R118). -/
  | fwGetAdc (channel : Byte)
  /-- FW_SET_DAC (R119). -/
  | fwSetDac (channel : Byte) (value : Word32)
  /-- FW_GET_DAC (R120). -/
  | fwGetDac (channel : Byte)
  /-- FW_PUSH_BYTE (R181). -/
  | fwPushByte (byte : Word32)
  /-- FW_READ_TIME (R145). -/
  | fwReadTime
  /-- QUADRANT_UPDATE, a 35-byte unit of the serial stream (R91). -/
  | quadrantUpdate (x y : Byte) (payload : List Byte)
  /-- UNRECOGNISED_BYTE, a one-byte unit of the serial stream (R94, R185). -/
  | unrecognisedByte (byte : Byte)
  deriving DecidableEq, Repr

/-- What carries an instruction: a command on a port, or bytes of the serial stream. -/
inductive Code where
  | command (c : Command)
  | serial (bytes : List Byte)
  deriving DecidableEq, Repr

/-- What stands at the head of the serial queue (43_serial_frame_reader R182). -/
inductive SerialHead where
  /-- The queue is empty. -/
  | empty
  /-- A tag 0x1A with fewer than 34 bytes after it (R186). -/
  | partialFrame
  /-- A whole unit and the bytes after it. -/
  | unit (i : Instr) (rest : List Byte)
  deriving DecidableEq, Repr

end Sys2Proof
end

