-- ==== Sys2Proof/WellFormed.lean ====
section
/-! DEFINITION. The operand ranges of the opcode table (30_encoding R83, R84, R91, R94), as one decidable check. A command that
fails it decodes all the same and faults when it runs (R254, R255). -/

namespace Sys2Proof

/-- The operands of an instruction are in the ranges of its opcode-table row. Membership in WATCHED is a parameter, not syntax. -/
def Instr.wellFormed : Instr → Bool
  | .setGpio line value => decide (line.toNat ≤ 63) && decide (value.toNat ≤ 1)
  | .getGpio line => decide (line.toNat ≤ 63)
  | .setAdc channel value => decide (channel.toNat ≤ 1) && decide (value.toNat ≤ 4095)
  | .getAdc channel => decide (channel.toNat ≤ 1)
  | .getDac channel => decide (channel.toNat ≤ 1)
  | .checkEdge line => decide (line.toNat ≤ 63)
  | .advance _ => true
  | .nextFrame => true
  | .fwSetGpio line value => decide (line.toNat ≤ 63) && decide (value.toNat ≤ 1)
  | .fwGetGpio line => decide (line.toNat ≤ 63)
  | .fwGetAdc channel => decide (channel.toNat ≤ 1)
  | .fwSetDac channel value => decide (channel.toNat ≤ 1) && decide (value.toNat ≤ 65535)
  | .fwGetDac channel => decide (channel.toNat ≤ 1)
  | .fwPushByte byte => decide (byte.toNat ≤ 255)
  | .fwReadTime => true
  | .quadrantUpdate _ _ payload => decide (payload.length = 32)
  | .unrecognisedByte byte => decide (byte ≠ 0x1A#8)

end Sys2Proof
end

