-- ==== Sys2Proof/Decode.lean ====
section
/-! DEFINITION. The decoder of command words (30_encoding R80 to R89, the checks that need no state and no operand range), the
decoder of the serial stream (R90 to R94), and the encoder, from the same tables. -/

namespace Sys2Proof

/-! ## The opcode map (R82) -/

/-- The OP field of an opcode (R82). -/
def Opcode.code : Opcode → Byte
  | .setGpio => 0x01
  | .getGpio => 0x02
  | .setAdc => 0x03
  | .getAdc => 0x04
  | .getDac => 0x06
  | .checkEdge => 0x07
  | .advance => 0x08
  | .nextFrame => 0x09
  | .fwSetGpio => 0x11
  | .fwGetGpio => 0x12
  | .fwGetAdc => 0x14
  | .fwSetDac => 0x15
  | .fwGetDac => 0x16
  | .fwPushByte => 0x17
  | .fwReadTime => 0x18

/-- The opcode of an OP field; every value not in R82 is undefined (R87). -/
def opcodeOf (op : Byte) : Option Opcode :=
  match op.toNat with
  | 0x01 => some .setGpio
  | 0x02 => some .getGpio
  | 0x03 => some .setAdc
  | 0x04 => some .getAdc
  | 0x06 => some .getDac
  | 0x07 => some .checkEdge
  | 0x08 => some .advance
  | 0x09 => some .nextFrame
  | 0x11 => some .fwSetGpio
  | 0x12 => some .fwGetGpio
  | 0x14 => some .fwGetAdc
  | 0x15 => some .fwSetDac
  | 0x16 => some .fwGetDac
  | 0x17 => some .fwPushByte
  | 0x18 => some .fwReadTime
  | _ => none

/-- The one port an opcode belongs to (R81, R82). -/
def Opcode.port : Opcode → Port
  | .setGpio | .getGpio | .setAdc | .getAdc | .getDac | .checkEdge | .advance | .nextFrame => .host
  | .fwSetGpio | .fwGetGpio | .fwGetAdc | .fwSetDac | .fwGetDac | .fwPushByte | .fwReadTime => .firmware

/-- IDX is reserved and must be 0 (R83). -/
def Opcode.idxReserved : Opcode → Bool
  | .advance | .nextFrame | .fwPushByte | .fwReadTime => true
  | _ => false

/-- DATA is reserved and must be 0 (R84). -/
def Opcode.dataReserved : Opcode → Bool
  | .setGpio | .setAdc | .advance | .fwSetGpio | .fwSetDac | .fwPushByte => false
  | _ => true

/-- The instruction of an opcode with its IDX and DATA fields (R82). -/
def Opcode.instr (o : Opcode) (idx : Byte) (data : Word32) : Instr :=
  match o with
  | .setGpio => .setGpio idx data
  | .getGpio => .getGpio idx
  | .setAdc => .setAdc idx data
  | .getAdc => .getAdc idx
  | .getDac => .getDac idx
  | .checkEdge => .checkEdge idx
  | .advance => .advance data
  | .nextFrame => .nextFrame
  | .fwSetGpio => .fwSetGpio idx data
  | .fwGetGpio => .fwGetGpio idx
  | .fwGetAdc => .fwGetAdc idx
  | .fwSetDac => .fwSetDac idx data
  | .fwGetDac => .fwGetDac idx
  | .fwPushByte => .fwPushByte data
  | .fwReadTime => .fwReadTime

/-! ## Command words (R80, R89) -/

/-- The OP field, bits 63:56. -/
def opField (w : Word64) : Byte := w.extractLsb' 56 8

/-- The IDX field, bits 55:48. -/
def idxField (w : Word64) : Byte := w.extractLsb' 48 8

/-- The RSV field, bits 47:32. -/
def rsvField (w : Word64) : BitVec 16 := w.extractLsb' 32 16

/-- The DATA field, bits 31:0. -/
def dataField (w : Word64) : Word32 := w.extractLsb' 0 32

/-- The decode checks of R89 between the fault latch and the operand ranges, in its order. -/
def decodeCommand (c : Command) : Except BlockFault Instr :=
  match opcodeOf (opField c.word) with
  | none => .error .illegalCommand
  | some o =>
    if o.port ≠ c.port then .error .wrongPort
    else if rsvField c.word ≠ 0 then .error .illegalCommand
    else if o.idxReserved = true ∧ idxField c.word ≠ 0 then .error .illegalCommand
    else if o.dataReserved = true ∧ dataField c.word ≠ 0 then .error .illegalCommand
    else .ok (o.instr (idxField c.word) (dataField c.word))

/-! ## The serial stream (R90 to R94) -/

/-- TAG_QUAD, the only recognised tag (00_scope R7, R90). -/
def tagQuad : Byte := 0x1A#8

/-- What stands at the head of the queue: a whole quadrant frame of 35 bytes (R91), one unrecognised byte (R94), a partial frame
(43_serial_frame_reader R186) or nothing. -/
def decodeUnit : List Byte → SerialHead
  | [] => .empty
  | t :: rest =>
    if t = tagQuad then
      match rest with
      | x :: y :: body =>
        if 32 ≤ body.length then .unit (.quadrantUpdate x y (body.take 32)) (body.drop 32) else .partialFrame
      | _ => .partialFrame
    else .unit (.unrecognisedByte t) rest

/-- Decoding of what carries an instruction; a serial code must be exactly one unit. -/
def decode : Code → Option Instr
  | .command c => (decodeCommand c).toOption
  | .serial bytes =>
    match decodeUnit bytes with
    | .unit i [] => some i
    | _ => none

/-! ## The encoder -/

/-- A command word from its fields, RSV zero (R80). -/
def commandWord (op idx : Byte) (data : Word32) : Word64 := op ++ idx ++ 0#16 ++ data

/-- The command of an opcode with its fields, on its own port (R80, R81). -/
def Opcode.command (o : Opcode) (idx : Byte) (data : Word32) : Command := ⟨o.port, commandWord o.code idx data⟩

/-- The encoding of an instruction: a command (R82) or the bytes of a serial unit (R91, R94). -/
def encode : Instr → Code
  | .setGpio line value => .command (Opcode.setGpio.command line value)
  | .getGpio line => .command (Opcode.getGpio.command line 0)
  | .setAdc channel value => .command (Opcode.setAdc.command channel value)
  | .getAdc channel => .command (Opcode.getAdc.command channel 0)
  | .getDac channel => .command (Opcode.getDac.command channel 0)
  | .checkEdge line => .command (Opcode.checkEdge.command line 0)
  | .advance elapsed => .command (Opcode.advance.command 0 elapsed)
  | .nextFrame => .command (Opcode.nextFrame.command 0 0)
  | .fwSetGpio line value => .command (Opcode.fwSetGpio.command line value)
  | .fwGetGpio line => .command (Opcode.fwGetGpio.command line 0)
  | .fwGetAdc channel => .command (Opcode.fwGetAdc.command channel 0)
  | .fwSetDac channel value => .command (Opcode.fwSetDac.command channel value)
  | .fwGetDac channel => .command (Opcode.fwGetDac.command channel 0)
  | .fwPushByte byte => .command (Opcode.fwPushByte.command 0 byte)
  | .fwReadTime => .command (Opcode.fwReadTime.command 0 0)
  | .quadrantUpdate x y payload => .serial (tagQuad :: x :: y :: payload)
  | .unrecognisedByte byte => .serial [byte]

/-! ## Words as the opcode table numbers them -/

/-- The first `n` bytes of a number, byte 0 in its least significant bits. -/
def bytesOfNat : Nat → Nat → List Byte
  | 0, _ => []
  | n + 1, w => BitVec.ofNat 8 w :: bytesOfNat n (w / 256)

/-- What carries a table row's instruction: 64 bits are a command word, presented on the port of its opcode (on the host port
where the opcode is undefined); any other count is a unit of the serial stream, 35 bytes after the tag 0x1A and one byte
otherwise, with zeros above `nbits` (log entry 7). -/
def tableCode (nbits w : Nat) : Code :=
  if nbits = 64 then
    let word := BitVec.ofNat 64 w
    .command ⟨((opcodeOf (opField word)).map Opcode.port).getD .host, word⟩
  else
    let w := w % 2 ^ nbits
    .serial (if BitVec.ofNat 8 w = tagQuad then bytesOfNat 35 w else bytesOfNat 1 w)

/-- The instruction the decoder reads from a word of the opcode table. -/
def decodeTableWord (nbits w : Nat) : Option Instr := decode (tableCode nbits w)

end Sys2Proof
end

