-- ==== Sys2Proof/Config.lean ====
section
/-! DEFINITION. The construction parameters of an instance (00_scope R8), the example instance EX (95_test_vectors section 0), the
environment's draws of one cycle (45_orchestrator R211, R218, R223), and the free values: opaque constants with no body. -/

namespace Sys2Proof

/-- One entry of INPUT_MAP (00_scope R8, 45_orchestrator R211): the host input's number, its register and its mapping kind. -/
inductive InputRow where
  /-- KNOB: parameter to ADC channel (R213). -/
  | knob (input : Nat) (channel : Fin 2)
  /-- BUTTON: front button to GPIO line (R214). -/
  | button (input : Nat) (line : Fin 64)
  /-- JACK_DETECT: "connected" to GPIO line (R215). -/
  | jackDetect (input : Nat) (line : Fin 64)
  /-- JACK_LEVEL: signal above 0 V to GPIO line (R215). -/
  | jackLevel (input : Nat) (line : Fin 64)
  deriving DecidableEq, Repr

/-- The register an output is read from (45_orchestrator R211, SamplingOutputs). -/
inductive OutputSource where
  /-- A trigger jack (R219). -/
  | gpio (line : Fin 64)
  /-- A CV jack with its indicator (R220). -/
  | dac (channel : Fin 2)
  deriving DecidableEq, Repr

/-- One entry of OUTPUT_MAP (00_scope R8): a register and the number of the host output it drives. -/
structure OutputRow where
  source : OutputSource
  output : Nat
  deriving DecidableEq, Repr

/-- The open parameters of R8, fixed at construction (70_reset_and_hazards R280). WATCHED is the set of the elements of
`watchOrder`. -/
structure Params where
  /-- FRONT_BUTTON_LINE. -/
  frontButtonLine : Fin 64
  /-- CLOCK_LINES. -/
  clockLines : List (Fin 64)
  /-- WATCH_ORDER: every element of WATCHED, each once, in check order. -/
  watchOrder : List (Fin 64)
  /-- IRQ_OF: only the entries of watched lines are used (R168). -/
  irqOf : Vector Nat 64
  /-- TIMER_SCALE: binary64 bits, timer units per second. -/
  timerScale : Word64
  /-- QUEUE_CAPACITY: `none` is unbounded. -/
  queueCapacity : Option Nat
  /-- SAMPLE_RATE: binary32 bits, samples per second. -/
  sampleRate : Word32
  /-- INPUT_MAP. -/
  inputMap : List InputRow
  /-- OUTPUT_MAP. -/
  outputMap : List OutputRow
  deriving DecidableEq, Repr

/-- The example instance EX of 95_test_vectors section 0. Host inputs: 0 the knob, 1 the clock jack, 2 the front button. Host
outputs: 0 the trigger jack, 1 the CV jack. -/
def Params.ex : Params where
  frontButtonLine := 32
  clockLines := [13]
  watchOrder := [13, 32]
  irqOf := (Vector.replicate 64 0).set 13 1
  timerScale := 0x408F400000000000#64
  queueCapacity := none
  sampleRate := 0x473B8000#32
  inputMap := [.knob 0 0, .jackLevel 1 13, .button 2 32]
  outputMap := [⟨.gpio 40, 0⟩, ⟨.dac 0, 1⟩]

/-- One continuous host input of a sample (45_orchestrator R211): the binary32 bits of its parameter value or jack voltage, and
whether a jack is connected. -/
structure HostInput where
  value : Word32
  connected : Bool
  deriving DecidableEq, Repr, Inhabited

/-- The environment's draws for one cycle: the continuous inputs by number, the words the firmware engine presents in its run
(45_orchestrator R218), and the accessory's presence at each delivery in turn (R223). -/
structure Sample where
  inputs : List HostInput
  firmware : List Word64
  presence : List Bool
  deriving DecidableEq, Repr

/-- No draw given. -/
def Sample.none : Sample := ⟨[], [], []⟩

/-- FREE VALUE (log entry 10): a host input that the sample does not list, by draw and input number. -/
opaque Config.hostInput : Nat → Nat → HostInput

/-- FREE VALUE (log entry 10): the accessory's presence at a delivery that the sample does not list, by draw. -/
opaque Config.accessoryPresent : Nat → Bool

/-- FREE VALUE (log entry 8): the sign and the payload below the quiet bit of a binary64 NaN result, by operands. -/
opaque Config.nanBits64 : Word64 → Word64 → BitVec 52

/-- FREE VALUE (log entry 8): the sign and the payload below the quiet bit of a binary32 NaN result, by operand. -/
opaque Config.nanBits32 : Word32 → BitVec 23

end Sys2Proof
end

