-- ==== Sys2Proof/Machine/State.lean ====
section
/-! DEFINITION. The state of one instance of the block with its host (10_state R20, R38), as plain data, and its reset (R39). -/

namespace Sys2Proof.Machine

/-- Why a step ends in a fault. No command of the block does: a faulting command is a next state with the fault latch set
(60_exceptions R250). Only the host's turn stops. -/
inductive Fault where
  /-- Raised by the host's turn when FAULT is not 0: the block refuses every command and answers nothing, so the host's cycle
  cannot go on (60_exceptions R250, "a stuck, never-final state"). Safe (log entry 3). -/
  | blockFaulted
  /-- Raised by the host's turn in SamplingOutputs or DrainingSerial when the last response is not the one its own command gets;
  only in states that no cycle reaches. Safe (log entry 3). -/
  | noHostResponse
  deriving DecidableEq, Repr

/-- Why a step is refused. -/
inductive Refusal where
  /-- Raised by an arm of `exec` whose instruction has no meaning yet; safe. No arm raises it: every instruction is modelled. -/
  | notModelled (mnemonic : String)
  deriving DecidableEq, Repr

/-- An entry of the Interrupt Line Table (10_state R20, R29). -/
inductive LineEntry where
  /-- Before the first check of the line. -/
  | unseeded
  /-- The value the previous check saw. -/
  | seen (b : Bit)
  deriving DecidableEq, Repr

/-- One interrupt event `IRQ(n)` (10_state R34). -/
structure Irq where
  number : Nat
  deriving DecidableEq, Repr

/-- The frame `Quad(x, y, leds)` (30_encoding R95); `leds` holds 64 values in order. -/
structure Quad where
  x : Byte
  y : Byte
  leds : List Level
  deriving DecidableEq, Repr

/-- The response of a command (30_encoding R85). -/
inductive Response where
  | ack
  | value32 (v : Word32)
  | value64 (v : Word64)
  /-- `None` or `Quad(x, y, leds)`. -/
  | frame (f : Option Quad)
  deriving DecidableEq, Repr

/-- The host's phase (45_orchestrator R210). -/
inductive Phase where
  | idle | samplingInputs | dispatchingInterrupts | advancingClock | runningFirmware | samplingOutputs | drainingSerial
  deriving DecidableEq, Repr

/-- The exact value `num / 65536` of an output (45_orchestrator R219, R220; log entry 13). -/
structure Exact16 where
  num : Nat
  deriving DecidableEq, Repr

/-- A host output as last written: its volts, and its indicator where the spec gives one (45_orchestrator R211). -/
structure HostOutput where
  output : Nat
  volts : Exact16
  light : Option Exact16
  deriving DecidableEq, Repr

/-- The state of one instance. -/
structure State where
  /-- GPIO[0..63] (R21). -/
  gpio : Vector Bit 64
  /-- ADC[0..1] (R22). -/
  adc : Vector (BitVec 12) 2
  /-- DAC[0..1] (R23). -/
  dac : Vector (BitVec 16) 2
  /-- LINE, the Interrupt Line Table; the entries of unwatched lines stay `unseeded` (R29, log entry 12). -/
  line : Vector LineEntry 64
  /-- TIME, binary64 bits (R31). -/
  time : Word64
  /-- QUEUE, head first (R32). -/
  queue : List Byte
  /-- FAULT (R33). -/
  fault : BitVec 8
  /-- FAULT_WORD (R33). -/
  faultWord : Word64
  /-- FAULT_PORT, 0 host, 1 firmware (R33). -/
  faultPort : Bit
  /-- IRQ_OUT, oldest first (R34). -/
  irqOut : List Irq
  /-- The construction parameters (00_scope R8); no step changes them (log entry 1). -/
  params : Params
  /-- The model's own: the commands presented and not yet consumed, in order (log entry 2). -/
  bus : List Command
  /-- The model's own: the last command's response and its port, `none` where it gave none (log entry 4). -/
  response : Option (Port × Response)
  /-- PHASE, host state (45_orchestrator R210). -/
  phase : Phase
  /-- The model's own: the audio callbacks to come (log entry 9). -/
  samples : List Sample
  /-- The model's own: the draws of the cycle under way (log entry 9). -/
  current : Sample
  /-- The rows of OUTPUT_MAP the host has still to read in SamplingOutputs, the first one's read issued (45_orchestrator R211). -/
  outTodo : List OutputRow
  /-- The host outputs written so far (45_orchestrator R211). -/
  outputs : List HostOutput
  /-- The frames delivered to the accessory, in order (45_orchestrator R222). -/
  delivered : List Quad
  /-- The model's own: the number of the next free draw of the environment (log entry 10). -/
  draws : Nat
  deriving DecidableEq, Repr

/-- The outcome of a step of this machine. -/
abbrev Result := Host.Outcome State Fault Refusal

/-- Construction of the instance with parameters `P` (10_state R39, 70_reset_and_hazards R280). -/
def State.resetWith (P : Params) : State where
  gpio := Vector.replicate 64 0
  adc := Vector.replicate 2 0
  dac := Vector.replicate 2 0
  line := Vector.replicate 64 .unseeded
  time := 0
  queue := []
  fault := 0
  faultWord := 0
  faultPort := 0
  irqOut := []
  params := P
  bus := []
  response := none
  phase := .idle
  samples := []
  current := Sample.none
  outTodo := []
  outputs := []
  delivered := []
  draws := 0

/-- The machine after reset: the example instance EX of 95_test_vectors (log entry 1). -/
def State.reset : State := State.resetWith Params.ex

end Sys2Proof.Machine
end

