-- ==== Sys2Proof/Machine/Ops.lean ====
section
/-! DEFINITION. The named operations over the state: the register file, the line table, the queue, responses and interrupt events
(00_scope R11), and taking a fault (60_exceptions R250), the one exception the block has. There is no return from it but a new
instance (R268, 70_reset_and_hazards R281). -/

namespace Sys2Proof.Machine

/-! ## Register file, line table, timer, queue (00_scope R11) -/

/-- `GPIO[l]`. -/
def State.readGpio (s : State) (l : Fin 64) : Bit := s.gpio[l.val]

/-- `GPIO[l] <- v`. -/
def State.writeGpio (s : State) (l : Fin 64) (v : Bit) : State := { s with gpio := s.gpio.set l.val v }

/-- `ADC[c]`. -/
def State.readAdc (s : State) (c : Fin 2) : BitVec 12 := s.adc[c.val]

/-- `ADC[c] <- v`. -/
def State.writeAdc (s : State) (c : Fin 2) (v : BitVec 12) : State := { s with adc := s.adc.set c.val v }

/-- `DAC[c]`. -/
def State.readDac (s : State) (c : Fin 2) : BitVec 16 := s.dac[c.val]

/-- `DAC[c] <- v`. -/
def State.writeDac (s : State) (c : Fin 2) (v : BitVec 16) : State := { s with dac := s.dac.set c.val v }

/-- `LINE[l]`. -/
def State.readLine (s : State) (l : Fin 64) : LineEntry := s.line[l.val]

/-- `LINE[l] <- e`. -/
def State.writeLine (s : State) (l : Fin 64) (e : LineEntry) : State := { s with line := s.line.set l.val e }

/-- `l in WATCHED` (00_scope R8). -/
def State.watched (s : State) (l : Fin 64) : Bool := decide (l ∈ s.params.watchOrder)

/-- `IRQ_OF(l)` (00_scope R8). -/
def State.irqOf (s : State) (l : Fin 64) : Nat := s.params.irqOf[l.val]

/-- `emit IRQ(n)`: one event at the end of IRQ_OUT (00_scope R11, 42_interrupt_dispatcher R165). -/
def State.emitIrq (s : State) (n : Nat) : State := { s with irqOut := s.irqOut ++ [⟨n⟩] }

/-- `TIME <- t`. -/
def State.writeTime (s : State) (t : Word64) : State := { s with time := t }

/-- `Queue.push(b)` (00_scope R11). -/
def State.pushQueue (s : State) (b : Byte) : State := { s with queue := s.queue ++ [b] }

/-- `Queue.pop(k)` (00_scope R11). -/
def State.popQueue (s : State) (k : Nat) : State := { s with queue := s.queue.drop k }

/-- QUEUE_CAPACITY is bounded and QUEUE holds that many bytes (43_serial_frame_reader R181, 60_exceptions R258). -/
def State.queueFull (s : State) : Bool := decide (s.params.queueCapacity = some s.queue.length)

/-! ## Responses -/

/-- `respond(v)` on port `p` (00_scope R11). -/
def State.respond (s : State) (p : Port) (r : Response) : State := { s with response := some (p, r) }

/-- A command that is refused or faults gives no response (60_exceptions R250). -/
def State.refuse (s : State) : State := { s with response := none }

/-! ## Faults (60_exceptions R250, R251) -/

/-- The code of a fault (R251). -/
def faultCode (f : BlockFault) : BitVec 8 :=
  match f with
  | .illegalCommand => 1
  | .wrongPort => 2
  | .indexOutOfRange => 3
  | .valueOutOfRange => 4
  | .unwatchedLine => 5
  | .nonFiniteElapsed => 6
  | .queueOverflow => 7

/-- FAULT_PORT's bit of a port (R250): 0 host, 1 firmware. -/
def portBit (p : Port) : Bit :=
  match p with
  | .host => 0
  | .firmware => 1

/-- TAKING A FAULT (R250): the first fault sets FAULT, FAULT_WORD and FAULT_PORT; no other state of the block changes; the command
gives no response. On a block already faulted the first fault's values stay. -/
def State.takeFault (s : State) (f : BlockFault) (c : Command) : State :=
  if s.fault = 0 then
    { s.refuse with fault := faultCode f, faultWord := c.word, faultPort := portBit c.port }
  else s.refuse

/-- A command on a faulted block is refused before any check: no effect, no response (R250, R261). -/
def whenLive (s : State) (k : Result) : Result := if s.fault = 0 then k else .next s.refuse

end Sys2Proof.Machine
end

