-- ==== Sys2Proof/Machine/Operands.lean ====
section
/-! DEFINITION. The operand forms of a command and their checks, in the order of 30_encoding R89: a GPIO line, an ADC or DAC
channel (R83), a bounded value (R84). There is no other operand form; the block has no flags (10_state R35). -/

namespace Sys2Proof.Machine

/-- IDX as a GPIO line: IndexOutOfRange above 63 (R83, 60_exceptions R254). -/
def withLine (c : Command) (idx : Byte) (s : State) (k : Fin 64 → Result) : Result :=
  if h : idx.toNat < 64 then k ⟨idx.toNat, h⟩ else .next (s.takeFault .indexOutOfRange c)

/-- IDX as an ADC or DAC channel: IndexOutOfRange above 1 (R83, 60_exceptions R254). -/
def withChannel (c : Command) (idx : Byte) (s : State) (k : Fin 2 → Result) : Result :=
  if h : idx.toNat < 2 then k ⟨idx.toNat, h⟩ else .next (s.takeFault .indexOutOfRange c)

/-- DATA as a value of at most `max`: ValueOutOfRange above it, never a truncation (R84, 60_exceptions R255). -/
def withValue (c : Command) (max : Nat) (v : Word32) (s : State) (k : Result) : Result :=
  if v.toNat ≤ max then k else .next (s.takeFault .valueOutOfRange c)

end Sys2Proof.Machine
end

