-- ==== Sys2Proof/Machine/Dispatcher.lean ====
section
/-! DEFINITION. The Interrupt Dispatcher's command (42_interrupt_dispatcher R161, R162). -/

namespace Sys2Proof.Machine

/-- The check of a watched line (R161): the first check seeds its entry and reports not triggered (R162); later a difference
updates the entry, emits exactly one event and reports triggered. -/
def State.checkLine (s : State) (l : Fin 64) : State :=
  match s.readLine l with
  | .unseeded => (s.writeLine l (.seen (s.readGpio l))).respond .host (.value32 0)
  | .seen prev =>
    if s.readGpio l ≠ prev then
      ((s.writeLine l (.seen (s.readGpio l))).emitIrq (s.irqOf l)).respond .host (.value32 1)
    else s.respond .host (.value32 0)

/-- CHECK_EDGE (R161): UnwatchedLine on a line outside WATCHED (60_exceptions R256). -/
def execCheckEdge (line : Byte) (s : State) : Result :=
  whenLive s <| withLine (Opcode.checkEdge.command line 0) line s fun l =>
    if s.watched l then .next (s.checkLine l)
    else .next (s.takeFault .unwatchedLine (Opcode.checkEdge.command line 0))

end Sys2Proof.Machine
end

