-- ==== Sys2Proof/Machine/FrameReader.lean ====
section
/-! DEFINITION. The Serial Frame Reader (43_serial_frame_reader R180 to R188): the push of a byte, the reader's loop, and the two
units of the stream as the reader's own arms. -/

namespace Sys2Proof.Machine

/-- The payload's brightness values (R183): the high nibble of byte `k` is LED `2k`, the low nibble LED `2k + 1`. -/
def unpackLeds : List Byte → List Level
  | [] => []
  | p :: ps => p.extractLsb' 4 4 :: p.extractLsb' 0 4 :: unpackLeds ps

/-- The inverse (R188): `(leds[2k] << 4) | leds[2k+1]`. -/
def packLeds : List Level → List Byte
  | a :: b :: rest => (a ++ b) :: packLeds rest
  | _ => []

/-- The wire bytes of a quadrant update (R188). -/
def frameBytes (q : Quad) : List Byte := tagQuad :: q.x :: q.y :: packLeds q.leds

/-- The loop of NEXT_FRAME (R182): the frame it returns and the queue it leaves. Unrecognised leading bytes are dropped one at a
time (R185); a partial frame empties the queue (R186). -/
def readFrame : List Byte → Option Quad × List Byte
  | [] => (none, [])
  | t :: rest =>
    if t = tagQuad then
      match rest with
      | x :: y :: body =>
        if 32 ≤ body.length then (some ⟨x, y, unpackLeds (body.take 32)⟩, body.drop 32) else (none, [])
      | _ => (none, [])
    else readFrame rest

/-- The reader runs on QUEUE and responds on the host port (R182). -/
def State.runReader (s : State) : State :=
  { s with queue := (readFrame s.queue).2 }.respond .host (.frame (readFrame s.queue).1)

/-- NEXT_FRAME (R182). -/
def execNextFrame (s : State) : Result := whenLive s <| .next s.runReader

/-- FW_PUSH_BYTE (R181): ValueOutOfRange above 255, then QueueOverflow on a full queue (60_exceptions R258). -/
def execFwPushByte (byte : Word32) (s : State) : Result :=
  whenLive s <| withValue (Opcode.fwPushByte.command 0 byte) 255 byte s <|
    if s.queueFull then .next (s.takeFault .queueOverflow (Opcode.fwPushByte.command 0 byte))
    else .next ((s.pushQueue (byte.extractLsb' 0 8)).respond .firmware .ack)

/-- QUADRANT_UPDATE at the head of QUEUE (R182, R183): the reader pops its 35 bytes and returns the frame (log entry 6). -/
def execQuadrantUpdate (x y : Byte) (payload : List Byte) (s : State) : Result :=
  whenLive s <| .next ((s.popQueue 35).respond .host (.frame (some ⟨x, y, unpackLeds payload⟩)))

/-- UNRECOGNISED_BYTE at the head of QUEUE (R182, R185), whatever byte it is: the reader pops that one byte and its loop goes on
with the byte after it (log entry 6). -/
def execUnrecognisedByte (_byte : Byte) (s : State) : Result := whenLive s <| .next (s.popQueue 1).runReader

end Sys2Proof.Machine
end

