-- ==== Sys2Proof/Machine/RegisterFile.lean ====
section
/-! DEFINITION. The ten Register File commands (40_register_file R111 to R120). Each shared operation takes the command, for the
fault registers, and answers on the command's port. -/

namespace Sys2Proof.Machine

/-! ## Shared operations -/

/-- A GPIO write through a port: `GPIO[i] <- v[0]`, ack (R111, R116). -/
def setGpioOp (c : Command) (idx : Byte) (v : Word32) (s : State) : Result :=
  whenLive s <| withLine c idx s fun l => withValue c 1 v s <|
    .next ((s.writeGpio l (v.extractLsb' 0 1)).respond c.port .ack)

/-- A GPIO read through a port (R112, R117). -/
def getGpioOp (c : Command) (idx : Byte) (s : State) : Result :=
  whenLive s <| withLine c idx s fun l => .next (s.respond c.port (.value32 ((s.readGpio l).setWidth 32)))

/-- An ADC write: `ADC[c] <- v[11:0]`, ack (R113). -/
def setAdcOp (c : Command) (idx : Byte) (v : Word32) (s : State) : Result :=
  whenLive s <| withChannel c idx s fun ch => withValue c 4095 v s <|
    .next ((s.writeAdc ch (v.extractLsb' 0 12)).respond c.port .ack)

/-- An ADC read through a port (R114, R118). -/
def getAdcOp (c : Command) (idx : Byte) (s : State) : Result :=
  whenLive s <| withChannel c idx s fun ch => .next (s.respond c.port (.value32 ((s.readAdc ch).setWidth 32)))

/-- A DAC write: `DAC[c] <- v[15:0]`, ack (R119). -/
def setDacOp (c : Command) (idx : Byte) (v : Word32) (s : State) : Result :=
  whenLive s <| withChannel c idx s fun ch => withValue c 65535 v s <|
    .next ((s.writeDac ch (v.extractLsb' 0 16)).respond c.port .ack)

/-- A DAC read through a port (R115, R120). -/
def getDacOp (c : Command) (idx : Byte) (s : State) : Result :=
  whenLive s <| withChannel c idx s fun ch => .next (s.respond c.port (.value32 ((s.readDac ch).setWidth 32)))

/-! ## Host port -/

/-- SET_GPIO (R111). -/
def execSetGpio (line : Byte) (value : Word32) (s : State) : Result :=
  setGpioOp (Opcode.setGpio.command line value) line value s

/-- GET_GPIO (R112). -/
def execGetGpio (line : Byte) (s : State) : Result := getGpioOp (Opcode.getGpio.command line 0) line s

/-- SET_ADC (R113). -/
def execSetAdc (channel : Byte) (value : Word32) (s : State) : Result :=
  setAdcOp (Opcode.setAdc.command channel value) channel value s

/-- GET_ADC (R114). -/
def execGetAdc (channel : Byte) (s : State) : Result := getAdcOp (Opcode.getAdc.command channel 0) channel s

/-- GET_DAC (R115). -/
def execGetDac (channel : Byte) (s : State) : Result := getDacOp (Opcode.getDac.command channel 0) channel s

/-! ## Firmware port -/

/-- FW_SET_GPIO (R116). -/
def execFwSetGpio (line : Byte) (value : Word32) (s : State) : Result :=
  setGpioOp (Opcode.fwSetGpio.command line value) line value s

/-- FW_GET_GPIO (R117). -/
def execFwGetGpio (line : Byte) (s : State) : Result := getGpioOp (Opcode.fwGetGpio.command line 0) line s

/-- FW_GET_ADC (R118). -/
def execFwGetAdc (channel : Byte) (s : State) : Result := getAdcOp (Opcode.fwGetAdc.command channel 0) channel s

/-- FW_SET_DAC (R119). -/
def execFwSetDac (channel : Byte) (value : Word32) (s : State) : Result :=
  setDacOp (Opcode.fwSetDac.command channel value) channel value s

/-- FW_GET_DAC (R120). -/
def execFwGetDac (channel : Byte) (s : State) : Result := getDacOp (Opcode.fwGetDac.command channel 0) channel s

end Sys2Proof.Machine
end

