-- ==== Sys2Proof/Machine/Float.lean ====
section
/-! DEFINITION. IEEE 754 binary32 and binary64 as the spec uses them (00_scope R12): classes and comparisons, exact widening,
binary64 addition and multiplication and the binary32 reciprocal, rounded to nearest, ties to even. A magnitude is the bits
below the sign bit; its exact value is a whole number of units of the format's least subnormal. -/

namespace Sys2Proof.Machine

/-- The magnitude bits of the format with `p` significand bits nearest to `n / 2^k` units of its least subnormal, ties to even;
`maxMag` is infinity's magnitude, which overflow gives. -/
def roundMag (p maxMag n k : Nat) : Nat :=
  let shift := max (Nat.log2 n + 1 - p) k
  let q := n >>> shift
  let r := n % (1 <<< shift)
  let up := if 1 <<< shift < 2 * r ∨ (1 <<< shift = 2 * r ∧ q % 2 = 1) then 1 else 0
  min (((shift - k) <<< (p - 1)) + q + up) maxMag

/-- The exact value of a finite magnitude with `f` fraction bits, in units of the format's least subnormal. -/
def unitsOf (f mag : Nat) : Nat :=
  if mag >>> f = 0 then mag else (mag % (1 <<< f) + (1 <<< f)) <<< (mag >>> f - 1)

/-! ## binary32 -/

/-- The magnitude of +infinity in binary32. -/
def inf32 : Nat := 0x7F800000

/-- The magnitude bits of a binary32. -/
def mag32 (x : Word32) : Nat := x.toNat % 0x80000000

/-- `is_nan` on binary32. -/
def isNan32 (x : Word32) : Bool := decide (inf32 < mag32 x)

/-- `is_inf` on binary32. -/
def isInf32 (x : Word32) : Bool := decide (mag32 x = inf32)

/-- `x > 0` on binary32: false for NaN and both zeros (R12). -/
def gtZero32 (x : Word32) : Bool := !x.msb && decide (0 < mag32 x) && !isNan32 x

/-- `x = 0.0` on binary32: true for both zeros, false for NaN. -/
def eqZero32 (x : Word32) : Bool := decide (mag32 x = 0)

/-- The units of 2^-149 in a finite binary32's magnitude. -/
def units32 (x : Word32) : Nat := unitsOf 23 (mag32 x)

/-- A binary32 from its sign and magnitude bits. -/
def pack32 (neg : Bool) (mag : Nat) : Word32 := BitVec.ofNat 32 mag ||| (if neg then 0x80000000#32 else 0)

/-- A quiet binary32 NaN with a free sign and payload (log entry 8). -/
def nan32 (x : Word32) : Word32 :=
  (Config.nanBits32 x).extractLsb' 22 1 ++ 0x1FF#9 ++ (Config.nanBits32 x).extractLsb' 0 22

/-- `1.0 / x` in binary32, rounded to nearest even (45_orchestrator R217). The quotient of a finite `x` of `u` units is `2^298 / u`
units: 17 more bits and a sticky bit make the rounding exact. -/
def recip32 (x : Word32) : Word32 :=
  if isNan32 x then nan32 x
  else if isInf32 x then pack32 x.msb 0
  else if eqZero32 x then pack32 x.msb inf32
  else
    let u := units32 x
    let n := 1 <<< 314
    pack32 x.msb (roundMag 24 inf32 (2 * (n / u) + (if n % u = 0 then 0 else 1)) 17)

/-! ## binary64 -/

/-- The magnitude of +infinity in binary64. -/
def inf64 : Nat := 0x7FF0000000000000

/-- The magnitude bits of a binary64. -/
def mag64 (x : Word64) : Nat := x.toNat % 0x8000000000000000

/-- `is_nan` on binary64. -/
def isNan64 (x : Word64) : Bool := decide (inf64 < mag64 x)

/-- `is_inf` on binary64. -/
def isInf64 (x : Word64) : Bool := decide (mag64 x = inf64)

/-- The units of 2^-1074 in a finite binary64's magnitude. -/
def units64 (x : Word64) : Nat := unitsOf 52 (mag64 x)

/-- A finite binary64's exact value in units of 2^-1074. -/
def signedUnits64 (x : Word64) : Int := if x.msb then -(units64 x : Int) else units64 x

/-- A binary64 from its sign and magnitude bits. -/
def pack64 (neg : Bool) (mag : Nat) : Word64 := BitVec.ofNat 64 mag ||| (if neg then 0x8000000000000000#64 else 0)

/-- A quiet binary64 NaN with a free sign and payload (log entry 8). -/
def nan64 (a b : Word64) : Word64 :=
  (Config.nanBits64 a b).extractLsb' 51 1 ++ 0xFFF#12 ++ (Config.nanBits64 a b).extractLsb' 0 51

/-- The binary64 magnitude nearest to `n / 2^k` units of 2^-1074. -/
def round64 (n k : Nat) : Nat := roundMag 53 inf64 n k

/-- A binary32 widened exactly to binary64 (41_timer R141): 2^-149 is 2^925 units of 2^-1074. -/
def widen (x : Word32) : Word64 :=
  if isNan32 x then nan64 (x.setWidth 64) 0
  else if isInf32 x then pack64 x.msb inf64
  else pack64 x.msb (round64 (units32 x <<< 925) 0)

/-- `fadd64` (R12). -/
def fadd64 (a b : Word64) : Word64 :=
  if isNan64 a || isNan64 b then nan64 a b
  else if isInf64 a then (if isInf64 b && (a.msb != b.msb) then nan64 a b else a)
  else if isInf64 b then b
  else
    let z := signedUnits64 a + signedUnits64 b
    if z = 0 then pack64 (a.msb && b.msb) 0 else pack64 (decide (z < 0)) (round64 z.natAbs 0)

/-- `fmul64` (R12): the exact product has units of 2^-2148, 2^1074 to the unit of binary64. -/
def fmul64 (a b : Word64) : Word64 :=
  let neg := a.msb != b.msb
  if isNan64 a || isNan64 b then nan64 a b
  else if isInf64 a || isInf64 b then
    (if mag64 a = 0 ∨ mag64 b = 0 then nan64 a b else pack64 neg inf64)
  else pack64 neg (round64 (units64 a * units64 b) 1074)

/-- A finite positive binary64, the domain of TIMER_SCALE (00_scope R8). -/
def isFinitePositive64 (x : Word64) : Bool := !x.msb && decide (0 < mag64 x) && decide (mag64 x < inf64)

end Sys2Proof.Machine
end

