-- ==== Sys2Proof/Machine/Timer.lean ====
section
/-! DEFINITION. The Timer/Clock Driver commands (41_timer R141, R145). -/

namespace Sys2Proof.Machine

/-- `clamp_elapsed` (R142): a positive operand as it is; zeros, negatives, -infinity and NaN give +0. -/
def clampElapsed (e : Word32) : Word32 := if gtZero32 e then e else 0

/-- TIME after an advance of `e` that does not fault (R141). -/
def advancedTime (timerScale time : Word64) (e : Word32) : Word64 :=
  fadd64 time (fmul64 timerScale (widen (clampElapsed e)))

/-- ADVANCE (R141): NonFiniteElapsed on +infinity (60_exceptions R257). -/
def execAdvance (elapsed : Word32) (s : State) : Result :=
  whenLive s <|
    if isInf32 elapsed && !elapsed.msb then
      .next (s.takeFault .nonFiniteElapsed (Opcode.advance.command 0 elapsed))
    else .next ((s.writeTime (advancedTime s.params.timerScale s.time elapsed)).respond .host .ack)

/-- FW_READ_TIME (R145). -/
def execFwReadTime (s : State) : Result := whenLive s <| .next (s.respond .firmware (.value64 s.time))

end Sys2Proof.Machine
end

