-- ==== Sys2Proof/Machine/Dispatch.lean ====
section
/-! DEFINITION. The dispatch of an instruction to its meaning: one arm per constructor of `Instr`. -/

namespace Sys2Proof.Machine

def exec (i : Instr) (s : State) : Host.Outcome State Fault Refusal :=
  match i with
  -- 40_register_file R111 to R115
  | .setGpio line value => Sys2Proof.Machine.execSetGpio line value s
  | .getGpio line => Sys2Proof.Machine.execGetGpio line s
  | .setAdc channel value => Sys2Proof.Machine.execSetAdc channel value s
  | .getAdc channel => Sys2Proof.Machine.execGetAdc channel s
  | .getDac channel => Sys2Proof.Machine.execGetDac channel s
  -- 42_interrupt_dispatcher R161
  | .checkEdge line => Sys2Proof.Machine.execCheckEdge line s
  -- 41_timer R141
  | .advance elapsed => Sys2Proof.Machine.execAdvance elapsed s
  -- 43_serial_frame_reader R182
  | .nextFrame => Sys2Proof.Machine.execNextFrame s
  -- 40_register_file R116 to R120
  | .fwSetGpio line value => Sys2Proof.Machine.execFwSetGpio line value s
  | .fwGetGpio line => Sys2Proof.Machine.execFwGetGpio line s
  | .fwGetAdc channel => Sys2Proof.Machine.execFwGetAdc channel s
  | .fwSetDac channel value => Sys2Proof.Machine.execFwSetDac channel value s
  | .fwGetDac channel => Sys2Proof.Machine.execFwGetDac channel s
  -- 43_serial_frame_reader R181, 41_timer R145
  | .fwPushByte byte => Sys2Proof.Machine.execFwPushByte byte s
  | .fwReadTime => Sys2Proof.Machine.execFwReadTime s
  -- the serial forms, 30_encoding R91, R94
  | .quadrantUpdate x y payload => Sys2Proof.Machine.execQuadrantUpdate x y payload s
  | .unrecognisedByte byte => Sys2Proof.Machine.execUnrecognisedByte byte s

end Sys2Proof.Machine
end

