-- ==== Sys2Proof/Machine/HostMap.lean ====
section
/-! DEFINITION. The host's continuous-signal mappings (45_orchestrator R213 to R220) and its commands (R211). -/

namespace Sys2Proof.Machine

/-! ## Inputs -/

/-- `adc_of` (R213): 0 for NaN, otherwise the exact `4095 * clamp(v, 0, 1)` rounded half away from zero. The clamped value is a
whole number of units of 2^-149. -/
def adcOf (v : Word32) : BitVec 12 :=
  if isNan32 v then 0
  else
    let clamped := if v.msb then 0 else min (units32 v) (1 <<< 149)
    BitVec.ofNat 12 ((2 * 4095 * clamped + 1 <<< 149) >>> 150)

/-- `button_of` (R214): 0 while pressed, 1 while released. -/
def buttonOf (v : Word32) : Bit := if eqZero32 v then 0 else 1

/-- `detect_of` (R215). -/
def detectOf (i : HostInput) : Bit := if i.connected then 1 else 0

/-- `level_of` (R215): an unconnected jack reads 0 V. -/
def levelOf (i : HostInput) : Bit := if i.connected && gtZero32 i.value then 1 else 0

/-- The number of a GPIO line as an IDX field. -/
def lineIdx (l : Fin 64) : Byte := BitVec.ofNat 8 l.val

/-- The number of a channel as an IDX field. -/
def channelIdx (c : Fin 2) : Byte := BitVec.ofNat 8 c.val

/-- The command of one INPUT_MAP entry, the host input of each number given (R211, R212). -/
def inputCommand (input : Nat → HostInput) : InputRow → Command
  | .knob n c => Opcode.setAdc.command (channelIdx c) ((adcOf (input n).value).setWidth 32)
  | .button n l => Opcode.setGpio.command (lineIdx l) ((buttonOf (input n).value).setWidth 32)
  | .jackDetect n l => Opcode.setGpio.command (lineIdx l) ((detectOf (input n)).setWidth 32)
  | .jackLevel n l => Opcode.setGpio.command (lineIdx l) ((levelOf (input n)).setWidth 32)

/-! ## Dispatch, clock, firmware, drain -/

/-- `check_edge l` for every line of WATCH_ORDER, in order (R216; the pseudo-instruction `dispatch` of 30_encoding R97). -/
def dispatchCommands (P : Params) : List Command := P.watchOrder.map fun l => Opcode.checkEdge.command (lineIdx l) 0

/-- `advance bits32(1.0 / SAMPLE_RATE)` (R217). -/
def advanceCommand (P : Params) : Command := Opcode.advance.command 0 (recip32 P.sampleRate)

/-- The firmware engine's run: its words on the firmware port (R218). -/
def firmwareCommands (words : List Word64) : List Command := words.map fun w => ⟨.firmware, w⟩

/-- `next_frame` (R222). -/
def nextFrameCommand : Command := Opcode.nextFrame.command 0 0

/-! ## Outputs -/

/-- `gate_volts` (R219): 8.0 V for 1, 0.0 V for 0. -/
def gateVolts (v : Word32) : Exact16 := if v = 1 then ⟨8 * 65536⟩ else ⟨0⟩

/-- `cv_volts` (R220): `10.0 * d / 65536.0`, exactly. -/
def cvVolts (d : Word32) : Exact16 := ⟨10 * d.toNat⟩

/-- `cv_light` (R220): `d / 65536.0`, exactly. -/
def cvLight (d : Word32) : Exact16 := ⟨d.toNat⟩

/-- The read command of an OUTPUT_MAP entry (R211). -/
def outputCommand (r : OutputRow) : Command :=
  match r.source with
  | .gpio l => Opcode.getGpio.command (lineIdx l) 0
  | .dac c => Opcode.getDac.command (channelIdx c) 0

/-- The output an OUTPUT_MAP entry writes from the value its read returned (R211). -/
def outputValue (r : OutputRow) (v : Word32) : HostOutput :=
  match r.source with
  | .gpio _ => ⟨r.output, gateVolts v, none⟩
  | .dac _ => ⟨r.output, cvVolts v, some (cvLight v)⟩

/-- An output takes its new value; the others keep theirs. -/
def setOutput (o : HostOutput) : List HostOutput → List HostOutput
  | [] => [o]
  | p :: ps => if p.output = o.output then o :: ps else p :: setOutput o ps

end Sys2Proof.Machine
end

