-- ==== Sys2Proof/Machine/Orchestrator.lean ====
section
/-! DEFINITION. The host's turn (45_orchestrator R210 to R228): what the Step Orchestrator does when no command waits on a port. A
phase is entered with its commands presented; the next turn comes when the block has consumed them. -/

namespace Sys2Proof.Machine

/-- The host input of a number in this sample; a free value where the sample lists none (log entry 10). -/
def sampleInput (d : Sample) (draw n : Nat) : HostInput := (d.inputs[n]?).getD (Config.hostInput draw n)

/-- Commands presented after those that wait. -/
def State.present (s : State) (cs : List Command) : State := { s with bus := s.bus ++ cs }

/-- `PHASE <- p`. -/
def State.enter (s : State) (p : Phase) : State := { s with phase := p }

/-- SamplingInputs (R212): every INPUT_MAP entry is written, in order. -/
def State.beginCycle (s : State) (d : Sample) (later : List Sample) : State :=
  { (s.enter .samplingInputs).present (s.params.inputMap.map (inputCommand (sampleInput d s.draws))) with
    samples := later, current := d, draws := s.draws + 1 }

/-- DispatchingInterrupts (R216). -/
def State.beginDispatch (s : State) : State :=
  (s.enter .dispatchingInterrupts).present (dispatchCommands s.params)

/-- AdvancingClock (R217). -/
def State.beginAdvance (s : State) : State := (s.enter .advancingClock).present [advanceCommand s.params]

/-- RunningFirmware (R218): the engine's whole run is presented on the firmware port. -/
def State.beginFirmware (s : State) : State :=
  (s.enter .runningFirmware).present (firmwareCommands s.current.firmware)

/-- The read of the first row still to do is issued; none where no row is left. -/
def State.readOutputs (s : State) (todo : List OutputRow) : State :=
  { s.present (todo.head?.toList.map outputCommand) with outTodo := todo }

/-- SamplingOutputs (R219, R220): the OUTPUT_MAP entries are read in order. -/
def State.beginOutputs (s : State) : State := (s.enter .samplingOutputs).readOutputs s.params.outputMap

/-- DrainingSerial (R222). -/
def State.beginDrain (s : State) : State := (s.enter .drainingSerial).present [nextFrameCommand]

/-- One output is written from its read's response and the next read is issued; after the last the drain begins (R211). -/
def State.continueOutputs (s : State) : Result :=
  match s.outTodo with
  | [] => .next s.beginDrain
  | r :: rest =>
    match s.response with
    | some (.host, .value32 v) =>
      .next ({ s with outputs := setOutput (outputValue r v) s.outputs }.readOutputs rest)
    | _ => .fault .noHostResponse

/-- `accessory_present()`: a fresh draw (R223), free where the sample lists none (log entry 10). -/
def State.accessoryPresent (s : State) : Bool := s.current.presence.headD (Config.accessoryPresent s.draws)

/-- The delivery of one frame (R222): the connection is drawn anew, and the frame is lost where it is absent. -/
def State.deliver (s : State) (q : Quad) : State :=
  { s with
    delivered := if s.accessoryPresent then s.delivered ++ [q] else s.delivered
    current := { s.current with presence := s.current.presence.tail }
    draws := s.draws + 1 }

/-- The drain loop (R222): a frame is delivered or lost and the next is asked for; `None` ends the cycle (R225, R228). -/
def State.continueDrain (s : State) : Result :=
  match s.response with
  | some (.host, .frame none) => .next { s.enter .idle with current := Sample.none }
  | some (.host, .frame (some q)) => .next ((s.deliver q).present [nextFrameCommand])
  | _ => .fault .noHostResponse

/-- THE HOST'S TURN: one move of the cycle of R211. In Idle the host waits for the next audio callback. A block that has faulted
answers nothing, so the host's cycle stops (60_exceptions R250; log entry 3). -/
def hostTurn (s : State) : Result :=
  if s.fault = 0 then
    match s.phase with
    | .idle =>
      match s.samples with
      | [] => .next s
      | d :: later => .next (s.beginCycle d later)
    | .samplingInputs => .next s.beginDispatch
    | .dispatchingInterrupts => .next s.beginAdvance
    | .advancingClock => .next s.beginFirmware
    | .runningFirmware => .next s.beginOutputs
    | .samplingOutputs => s.continueOutputs
    | .drainingSerial => s.continueDrain
  else .fault .blockFaulted

end Sys2Proof.Machine
end

