-- ==== Sys2Proof/Machine/Fetch.lean ====
section
/-! DEFINITION. The next command of the total order (20_memory R74): the block takes the first command that waits on a port and
decodes it (30_encoding R89). The block has no program counter (10_state R38). -/

namespace Sys2Proof.Machine

/-- What the next step runs. -/
inductive Fetched where
  /-- A decoded command, with the state after it is taken from its port. -/
  | run (i : Instr) (s : State)
  /-- A command that was refused or that faulted in decoding, with the state after it. -/
  | done (s : State)
  /-- No command waits: the host's turn. -/
  | host
  deriving DecidableEq, Repr

/-- The first command that waits is taken; a faulted block refuses it before any check (R89, 60_exceptions R250), and a decoding
fault is taken at once (R252, R253). -/
def fetch (s : State) : Fetched :=
  match s.bus with
  | [] => .host
  | c :: rest =>
    let s' := { s with bus := rest }
    if s.fault = 0 then
      match decodeCommand c with
      | .error f => .done (s'.takeFault f c)
      | .ok i => .run i s'
    else .done s'.refuse

/-- What carries an instruction is placed where the next step takes it (log entry 7): a command goes before those that wait; a
serial unit goes to the head of QUEUE with a NEXT_FRAME command to read it. -/
def State.presentCode (s : State) : Code → State
  | .command c => { s with bus := c :: s.bus }
  | .serial bytes => { s with bus := nextFrameCommand :: s.bus, queue := bytes ++ s.queue }

end Sys2Proof.Machine
end

