-- ==== Sys2Proof/Machine/Step.lean ====
section
/-! DEFINITION. One step of the machine (00_scope R16): the block consumes one command, or, where none waits, the host takes its
turn. -/

namespace Sys2Proof.Machine

/-- One step: the first command that waits is run, atomically (20_memory R70), or the host moves (45_orchestrator R211). -/
def step (s : State) : Host.Outcome State Fault Refusal :=
  match fetch s with
  | .run i s' => exec i s'
  | .done s' => .next s'
  | .host => hostTurn s

/-- The state with a word of the opcode table placed where the next step takes its command (log entry 7). -/
def State.withFetchWord (s : State) (nbits w : Nat) : State := s.presentCode (tableCode nbits w)

end Sys2Proof.Machine
end

