-- ==== Sys2Proof/Machine/Pseudo.lean ====
section
/-! DEFINITION. The pseudo-instructions and the assembler spelling of 30_encoding R96, R97. `dispatch` is `dispatchCommands`;
`cycle` is the host's turn (45_orchestrator R211). -/

namespace Sys2Proof.Machine

/-- `fw.push_quad x, y, l0 .. l63` (R97): 35 FW_PUSH_BYTE commands. -/
def pushQuad (q : Quad) : List Command := (frameBytes q).map fun b => Opcode.fwPushByte.command 0 (b.setWidth 32)

/-- `drain` (R97) bounded by `n` commands: NEXT_FRAME until it returns `None`; the frames returned and the state after, or none
where `n` commands do not reach `None`. -/
def drain : Nat → State → Option (List Quad × State)
  | 0, _ => none
  | n + 1, s =>
    match exec .nextFrame s with
    | .next s' =>
      match s'.response with
      | some (_, .frame none) => some ([], s')
      | some (_, .frame (some q)) => (drain n s').map fun r => (q :: r.1, r.2)
      | _ => none
    | _ => none

/-- `0x` and the `n` hexadecimal digits of a number. -/
def hexString (n w : Nat) : String :=
  "0x" ++ String.ofList ((List.range n).reverse.map fun k => (Nat.digitChar (w / 16 ^ k % 16)).toUpper)

/-- The assembler line of a command (R96), operands in decimal and the operand of `advance` as its bits; the serial units, which
have no spelling there, as their bytes. -/
def assembly : Instr → String
  | .setGpio line value => "set_gpio " ++ toString line.toNat ++ ", " ++ toString value.toNat
  | .getGpio line => "get_gpio " ++ toString line.toNat
  | .setAdc channel value => "set_adc " ++ toString channel.toNat ++ ", " ++ toString value.toNat
  | .getAdc channel => "get_adc " ++ toString channel.toNat
  | .getDac channel => "get_dac " ++ toString channel.toNat
  | .checkEdge line => "check_edge " ++ toString line.toNat
  | .advance elapsed => "advance " ++ hexString 8 elapsed.toNat
  | .nextFrame => "next_frame"
  | .fwSetGpio line value => "fw.set_gpio " ++ toString line.toNat ++ ", " ++ toString value.toNat
  | .fwGetGpio line => "fw.get_gpio " ++ toString line.toNat
  | .fwGetAdc channel => "fw.get_adc " ++ toString channel.toNat
  | .fwSetDac channel value => "fw.set_dac " ++ toString channel.toNat ++ ", " ++ toString value.toNat
  | .fwGetDac channel => "fw.get_dac " ++ toString channel.toNat
  | .fwPushByte byte => "fw.push_byte " ++ toString byte.toNat
  | .fwReadTime => "fw.read_time"
  | .quadrantUpdate x y payload => "; frame 0x1A " ++ toString ((x :: y :: payload).map (hexString 2 ·.toNat))
  | .unrecognisedByte byte => "; byte " ++ hexString 2 byte.toNat

end Sys2Proof.Machine
end

