-- ==== Sys2Proof/Safety.lean ====
section
/-! DEFINITION. The terms in which claims speak of a legal instance and a safe run: the constraints on the construction parameters
(00_scope R8), the invariants of the state, and the fault that 30_encoding R89 gives a command, read off the number of its word
without the decoder. -/

namespace Sys2Proof.Machine

/-- The constraints R8 and R214 put on the construction parameters. -/
def legalParams (P : Params) : Bool :=
  decide (P.frontButtonLine ∈ P.watchOrder) && decide P.watchOrder.Nodup
    && P.clockLines.all (fun c => decide (c ∈ P.watchOrder)
      && decide (P.watchOrder.idxOf c < P.watchOrder.idxOf P.frontButtonLine))
    && isFinitePositive64 P.timerScale
    && (match P.queueCapacity with | none => true | some n => decide (35 ≤ n))
    && gtZero32 P.sampleRate
    && P.inputMap.all (fun r => match r with | .button _ l => decide (l = P.frontButtonLine) | _ => true)

/-! ## The fault of a command (R89) -/

/-- The fault that R89's checks give a command on a block that has not faulted, in R89's order, from the word's number alone. -/
def commandFault (s : State) (c : Command) : Option BlockFault :=
  let w := c.word.toNat
  let op := w / 2 ^ 56
  let idx := w / 2 ^ 48 % 256
  let rsv := w / 2 ^ 32 % 65536
  let data := w % 2 ^ 32
  let hostOps := [0x01, 0x02, 0x03, 0x04, 0x06, 0x07, 0x08, 0x09]
  let firmwareOps := [0x11, 0x12, 0x14, 0x15, 0x16, 0x17, 0x18]
  if op ∉ hostOps ∧ op ∉ firmwareOps then some .illegalCommand
  else if (c.port = .host ∧ op ∉ hostOps) ∨ (c.port = .firmware ∧ op ∉ firmwareOps) then some .wrongPort
  else if rsv ≠ 0 then some .illegalCommand
  else if op ∈ [0x08, 0x09, 0x17, 0x18] ∧ idx ≠ 0 then some .illegalCommand
  else if op ∈ [0x02, 0x04, 0x06, 0x07, 0x09, 0x12, 0x14, 0x16, 0x18] ∧ data ≠ 0 then some .illegalCommand
  else if op ∈ [0x01, 0x02, 0x07, 0x11, 0x12] ∧ 63 < idx then some .indexOutOfRange
  else if op ∈ [0x03, 0x04, 0x06, 0x14, 0x15, 0x16] ∧ 1 < idx then some .indexOutOfRange
  else if (op ∈ [0x01, 0x11] ∧ 1 < data) ∨ (op = 0x03 ∧ 4095 < data) ∨ (op = 0x15 ∧ 65535 < data)
      ∨ (op = 0x17 ∧ 255 < data) then some .valueOutOfRange
  else if op = 0x07 ∧ ∀ l ∈ s.params.watchOrder, l.val ≠ idx then some .unwatchedLine
  else if op = 0x08 ∧ data = 0x7F800000 then some .nonFiniteElapsed
  else if op = 0x17 ∧ s.params.queueCapacity = some s.queue.length then some .queueOverflow
  else none

/-! ## Invariants -/

/-- The entries of unwatched lines hold nothing: the model's, which holds LINE as 64 entries where 10_state R29 has only the
watched ones (log entry 12). -/
def lineTableOk (s : State) : Prop := ∀ l : Fin 64, s.watched l = false → s.readLine l = .unseeded

/-- TIME is never negative and never NaN (10_state R31, 41_timer R143). -/
def timeOk (s : State) : Prop := s.time.toNat ≤ inf64

/-- QUEUE is at most QUEUE_CAPACITY long (10_state R32). -/
def queueOk (s : State) : Prop := ∀ n, s.params.queueCapacity = some n → s.queue.length ≤ n

/-- The fault registers are all zero, or they hold a fault's code with the word and port of a command that has this very fault
(10_state R33, 60_exceptions R250). A faulted block is frozen, so the command has it still. -/
def latchOk (s : State) : Prop :=
  (s.fault = 0 ∧ s.faultWord = 0 ∧ s.faultPort = 0)
    ∨ ∃ (f : BlockFault) (c : Command), s.fault = faultCode f ∧ s.faultWord = c.word ∧ s.faultPort = portBit c.port
      ∧ commandFault s c = some f

/-- Every event of IRQ_OUT is the interrupt number of a watched line (42_interrupt_dispatcher R165, R167). -/
def irqsOk (s : State) : Prop := ∀ e ∈ s.irqOut, ∃ l, s.watched l = true ∧ e.number = s.irqOf l

/-- The invariant of the block. -/
structure Invariant (s : State) : Prop where
  legal : legalParams s.params = true
  line : lineTableOk s
  time : timeOk s
  queue : queueOk s
  latch : latchOk s
  irqs : irqsOk s

/-! ## Terms of the statements -/

/-- The state in which the first fault left its code, word and port, and nothing else changed (60_exceptions R250). -/
def latched (s : State) (code : BitVec 8) (word : Word64) (port : Bit) : State :=
  { s with fault := code, faultWord := word, faultPort := port, response := none }

/-- Up to `k` steps, stopping at a fault or a refusal. -/
def steps : Nat → State → Result
  | 0, s => .next s
  | k + 1, s =>
    match step s with
    | .next t => steps k t
    | .fault r => .fault r
    | .refused r => .refused r

/-- The watched line's value differs from the one its entry holds, so its check will be triggered (42_interrupt_dispatcher R161). -/
def changed (s : State) (l : Fin 64) : Bool :=
  match s.readLine l with
  | .unseeded => false
  | .seen prev => decide (s.readGpio l ≠ prev)

/-- The real value of a finite binary32, exactly. -/
def value32 (x : Word32) : ℚ := (if x.msb then -1 else 1) * (units32 x : ℚ) / 2 ^ 149

/-- `m` is the magnitude, with `f` fraction bits and infinity at `maxMag`, to which `num / den` units of the least subnormal round
to nearest, ties to even (00_scope R12). It is infinity from half a unit of the last place above the greatest finite magnitude
on, where the tie goes to infinity because that magnitude is odd; otherwise no finite magnitude is nearer, and if another is
equally near, `m` is even. -/
def nearestEven (f maxMag num den m : Nat) : Prop :=
  m ≤ maxMag ∧ (m = maxMag ↔ (unitsOf f (maxMag - 1) + unitsOf f maxMag) * den ≤ 2 * num)
    ∧ (m < maxMag → ∀ j < maxMag,
      |(unitsOf f m * den : ℤ) - num| ≤ |(unitsOf f j * den : ℤ) - num|
        ∧ (|(unitsOf f m * den : ℤ) - num| = |(unitsOf f j * den : ℤ) - num| → j ≠ m → m % 2 = 0))

/-- The GPIO write of a port: SET_GPIO or FW_SET_GPIO (40_register_file R111, R116). -/
def gpioWrite (p : Port) (line : Byte) (v : Word32) : Instr :=
  match p with
  | .host => .setGpio line v
  | .firmware => .fwSetGpio line v

/-- The OP field of a command as a number. -/
def opNumber (c : Command) : Nat := c.word.toNat / 2 ^ 56

end Sys2Proof.Machine
end

