-- ==== Sys2Proof/Certificates/Slice0/Obligations.lean ====
section
/-! DEFINITION. The statements for the provers. A next state is written as the state before with the fields that change, so each
equation is the result and the frame at once: every field not named is unchanged. The block has no memory, so no frame speaks of
one (20_memory R60). -/

open Sys2Proof Sys2Proof.Machine

/-! ## Reset, decoding, the step -/

/-- 10_state R39: an instance of any parameters starts with every element at its tabled value. -/
def Obligations.ResetPutsEveryElementAtItsTabledValue : Prop :=
  ∀ P : Params,
    (∀ l, (State.resetWith P).readGpio l = 0) ∧ (∀ c, (State.resetWith P).readAdc c = 0)
      ∧ (∀ c, (State.resetWith P).readDac c = 0)
      ∧ (∀ l, (State.resetWith P).watched l = true → (State.resetWith P).readLine l = .unseeded)
      ∧ (State.resetWith P).time = 0 ∧ (State.resetWith P).queue = [] ∧ (State.resetWith P).fault = 0
      ∧ (State.resetWith P).faultWord = 0 ∧ (State.resetWith P).faultPort = 0 ∧ (State.resetWith P).irqOut = []
      ∧ (State.resetWith P).phase = .idle

/-- 30_encoding R89 (its last line), 00_scope R16: a step takes the first command that waits, and where it decodes the step is
`exec` of the instruction, with the command gone from the port; nothing else is added (the commands that wait: log entry 2). -/
def Obligations.StepRunsTheDecodedCommand : Prop :=
  ∀ (s : State) (c : Command) (rest : List Command) (i : Instr),
    s.bus = c :: rest → s.fault = 0 → decodeCommand c = .ok i → step s = exec i { s with bus := rest }

/-- 30_encoding R98: worked encodings, on the port of their opcode (R82). -/
def Obligations.WorkedWordsDecodeToTheirCommands : Prop :=
  decode (.command ⟨.host, 0x0120000000000001#64⟩) = some (.setGpio 32 1)
    ∧ decode (.command ⟨.host, 0x0301000000000FFF#64⟩) = some (.setAdc 1 4095)
    ∧ decode (.command ⟨.host, 0x070D000000000000#64⟩) = some (.checkEdge 13)
    ∧ decode (.command ⟨.host, 0x0800000037AEC33E#64⟩) = some (.advance 0x37AEC33E#32)
    ∧ decode (.command ⟨.host, 0x0900000000000000#64⟩) = some .nextFrame
    ∧ decode (.command ⟨.firmware, 0x1500000000008000#64⟩) = some (.fwSetDac 0 32768)
    ∧ decode (.command ⟨.firmware, 0x170000000000001A#64⟩) = some (.fwPushByte 0x1A)
    ∧ decode (.command ⟨.firmware, 0x1800000000000000#64⟩) = some .fwReadTime

/-- Every well-formed instruction survives encoding and decoding, with every operand at every value (30_encoding R80 to R84, R91,
R94). -/
def Obligations.DecodeOfEncodeIsTheInstruction : Prop :=
  ∀ i : Instr, i.wellFormed = true → decode (encode i) = some i

/-- No bit of an accepted command is dropped: encoding what was decoded gives the command back, port and word (30_encoding R86,
R88). -/
def Obligations.EncodeOfDecodeIsTheCommand : Prop :=
  ∀ (c : Command) (i : Instr), decodeCommand c = .ok i → encode i = .command c

/-! ## What each command does -/

/-- 40_register_file R111, R116; 30_encoding R85: a GPIO write through either port stores the bit and acknowledges. -/
def Obligations.GpioWritesStoreTheBitAndAcknowledge : Prop :=
  ∀ (s : State) (line : Byte) (v : Word32) (h : line.toNat < 64), s.fault = 0 → v.toNat ≤ 1 →
    exec (.setGpio line v) s =
        .next { s with gpio := s.gpio.set line.toNat (BitVec.ofNat 1 v.toNat) h, response := some (.host, .ack) }
      ∧ exec (.fwSetGpio line v) s =
        .next { s with gpio := s.gpio.set line.toNat (BitVec.ofNat 1 v.toNat) h, response := some (.firmware, .ack) }

/-- 40_register_file R112, R117; 30_encoding R85: a GPIO read through either port returns the line's bit and changes nothing. -/
def Obligations.GpioReadsReturnTheBit : Prop :=
  ∀ (s : State) (line : Byte) (h : line.toNat < 64), s.fault = 0 →
    exec (.getGpio line) s =
        .next { s with response := some (.host, .value32 (BitVec.ofNat 32 (s.gpio[line.toNat]'h).toNat)) }
      ∧ exec (.fwGetGpio line) s =
        .next { s with response := some (.firmware, .value32 (BitVec.ofNat 32 (s.gpio[line.toNat]'h).toNat)) }

/-- 40_register_file R113; 30_encoding R85: an ADC write stores the 12-bit value and acknowledges. -/
def Obligations.AdcWriteStoresTheValueAndAcknowledges : Prop :=
  ∀ (s : State) (channel : Byte) (v : Word32) (h : channel.toNat < 2), s.fault = 0 → v.toNat ≤ 4095 →
    exec (.setAdc channel v) s =
      .next { s with adc := s.adc.set channel.toNat (BitVec.ofNat 12 v.toNat) h, response := some (.host, .ack) }

/-- 40_register_file R114, R118; 30_encoding R85: an ADC read through either port returns the value and changes nothing. -/
def Obligations.AdcReadsReturnTheValue : Prop :=
  ∀ (s : State) (channel : Byte) (h : channel.toNat < 2), s.fault = 0 →
    exec (.getAdc channel) s =
        .next { s with response := some (.host, .value32 (BitVec.ofNat 32 (s.adc[channel.toNat]'h).toNat)) }
      ∧ exec (.fwGetAdc channel) s =
        .next { s with response := some (.firmware, .value32 (BitVec.ofNat 32 (s.adc[channel.toNat]'h).toNat)) }

/-- 40_register_file R119; 30_encoding R85: a DAC write stores the 16-bit value and acknowledges. -/
def Obligations.DacWriteStoresTheValueAndAcknowledges : Prop :=
  ∀ (s : State) (channel : Byte) (v : Word32) (h : channel.toNat < 2), s.fault = 0 → v.toNat ≤ 65535 →
    exec (.fwSetDac channel v) s =
      .next { s with dac := s.dac.set channel.toNat (BitVec.ofNat 16 v.toNat) h, response := some (.firmware, .ack) }

/-- 40_register_file R115, R120; 30_encoding R85: a DAC read through either port returns the value and changes nothing. -/
def Obligations.DacReadsReturnTheValue : Prop :=
  ∀ (s : State) (channel : Byte) (h : channel.toNat < 2), s.fault = 0 →
    exec (.getDac channel) s =
        .next { s with response := some (.host, .value32 (BitVec.ofNat 32 (s.dac[channel.toNat]'h).toNat)) }
      ∧ exec (.fwGetDac channel) s =
        .next { s with response := some (.firmware, .value32 (BitVec.ofNat 32 (s.dac[channel.toNat]'h).toNat)) }

/-- 42_interrupt_dispatcher R161, R162: the first check of a watched line seeds its entry, reports not triggered, emits nothing. -/
def Obligations.FirstCheckSeedsTheEntry : Prop :=
  ∀ (s : State) (line : Byte) (h : line.toNat < 64), s.fault = 0 → ⟨line.toNat, h⟩ ∈ s.params.watchOrder →
    s.line[line.toNat]'h = .unseeded →
    exec (.checkEdge line) s =
      .next { s with line := s.line.set line.toNat (.seen (s.gpio[line.toNat]'h)) h,
                     response := some (.host, .value32 0) }

/-- 42_interrupt_dispatcher R161, R163: a difference, in either direction, updates the entry, emits exactly one event with the
line's number and reports triggered. -/
def Obligations.ChangedLineFiresExactlyOnce : Prop :=
  ∀ (s : State) (line : Byte) (prev : Bit) (h : line.toNat < 64), s.fault = 0 →
    ⟨line.toNat, h⟩ ∈ s.params.watchOrder → s.line[line.toNat]'h = .seen prev → s.gpio[line.toNat]'h ≠ prev →
    exec (.checkEdge line) s =
      .next { s with line := s.line.set line.toNat (.seen (s.gpio[line.toNat]'h)) h,
                     irqOut := s.irqOut ++ [⟨s.params.irqOf[line.toNat]'h⟩],
                     response := some (.host, .value32 1) }

/-- 42_interrupt_dispatcher R161: an unchanged watched line reports not triggered and nothing else changes. -/
def Obligations.UnchangedLineDoesNotFire : Prop :=
  ∀ (s : State) (line : Byte) (h : line.toNat < 64), s.fault = 0 → ⟨line.toNat, h⟩ ∈ s.params.watchOrder →
    s.line[line.toNat]'h = .seen (s.gpio[line.toNat]'h) →
    exec (.checkEdge line) s = .next { s with response := some (.host, .value32 0) }

/-- 41_timer R141, R142: any operand but +infinity adds the scaled, clamped elapsed time to TIME and acknowledges. -/
def Obligations.AdvanceAddsTheScaledElapsedTime : Prop :=
  ∀ (s : State) (e : Word32), s.fault = 0 → e ≠ 0x7F800000#32 →
    exec (.advance e) s =
      .next { s with
        time := fadd64 s.time (fmul64 s.params.timerScale (widen (if gtZero32 e = true then e else 0))),
        response := some (.host, .ack) }

/-- 41_timer R145: the firmware reads the bits of TIME and changes nothing. -/
def Obligations.ReadTimeReturnsTheCounterBits : Prop :=
  ∀ s : State, s.fault = 0 → exec .fwReadTime s = .next { s with response := some (.firmware, .value64 s.time) }

/-- 43_serial_frame_reader R181: a byte is appended at the tail of a queue that is not full, whatever the byte. -/
def Obligations.PushByteAppendsAtTheTail : Prop :=
  ∀ (s : State) (b : Word32), s.fault = 0 → b.toNat ≤ 255 → s.params.queueCapacity ≠ some s.queue.length →
    exec (.fwPushByte b) s =
      .next { s with queue := s.queue ++ [BitVec.ofNat 8 b.toNat], response := some (.firmware, .ack) }

/-- 43_serial_frame_reader R182, R185: unrecognised bytes are skipped and the first whole frame is returned; exactly those bytes
leave the queue. -/
def Obligations.NextFrameReturnsTheFirstWholeFrame : Prop :=
  ∀ (s : State) (junk payload rest : List Byte) (x y : Byte), s.fault = 0 → (∀ b ∈ junk, b ≠ 0x1A#8) →
    payload.length = 32 → s.queue = junk ++ 0x1A#8 :: x :: y :: (payload ++ rest) →
    exec .nextFrame s =
      .next { s with queue := rest, response := some (.host, .frame (some ⟨x, y, unpackLeds payload⟩)) }

/-- 43_serial_frame_reader R182, R185, R186: with no whole frame after the unrecognised bytes, the queue is emptied and `None`
returned. -/
def Obligations.NextFrameDropsJunkAndPartialFrames : Prop :=
  ∀ (s : State) (junk tail : List Byte), s.fault = 0 → (∀ b ∈ junk, b ≠ 0x1A#8) →
    (tail = [] ∨ ∃ r, tail = 0x1A#8 :: r ∧ r.length < 34) → s.queue = junk ++ tail →
    exec .nextFrame s = .next { s with queue := [], response := some (.host, .frame none) }

/-- 43_serial_frame_reader R182, R185, R186: on every live state, whatever its queue, NEXT_FRAME either returns the first whole
frame and leaves what follows it, or returns `None` and leaves the queue empty, with the queue decomposed accordingly. -/
def Obligations.NextFrameAnswersOnEveryQueue : Prop :=
  ∀ s : State, s.fault = 0 →
    (∃ junk payload rest x y, (∀ b ∈ junk, b ≠ 0x1A#8) ∧ payload.length = 32
        ∧ s.queue = junk ++ 0x1A#8 :: x :: y :: (payload ++ rest)
        ∧ exec .nextFrame s =
          .next { s with queue := rest, response := some (.host, .frame (some ⟨x, y, unpackLeds payload⟩)) })
      ∨ (∃ junk tail, (∀ b ∈ junk, b ≠ 0x1A#8) ∧ (tail = [] ∨ ∃ r, tail = 0x1A#8 :: r ∧ r.length < 34)
        ∧ s.queue = junk ++ tail
        ∧ exec .nextFrame s = .next { s with queue := [], response := some (.host, .frame none) })

/-- 43_serial_frame_reader R187: NEXT_FRAME reads and writes nothing but QUEUE, through one function of the queue for all states,
and on the empty queue it returns `None` and changes nothing. -/
def Obligations.NextFrameTouchesOnlyTheQueue : Prop :=
  ∃ f : List Byte → Option Quad × List Byte, f [] = (none, []) ∧
    ∀ s : State, s.fault = 0 →
      exec .nextFrame s = .next { s with queue := (f s.queue).2, response := some (.host, .frame (f s.queue).1) }

/-- The unit that stands at the head of QUEUE is what NEXT_FRAME does next: the reader's arms of 43_serial_frame_reader R182. That
the units are instructions with meanings of their own is the model's choice (log entry 6). -/
def Obligations.SerialUnitsAreTheReadersArms : Prop :=
  ∀ (s : State) (i : Instr) (rest : List Byte), decodeUnit s.queue = .unit i rest → exec i s = exec .nextFrame s

/-- 43_serial_frame_reader R182, R183, R190 as the arm of QUADRANT_UPDATE (log entry 6): with the unit at the head of QUEUE, its 35
bytes leave the queue and the frame is returned with `x` and `y` unchanged. -/
def Obligations.QuadrantUnitIsPoppedAndReturned : Prop :=
  ∀ (s : State) (x y : Byte) (payload rest : List Byte), s.fault = 0 → payload.length = 32 →
    s.queue = 0x1A#8 :: x :: y :: (payload ++ rest) →
    exec (.quadrantUpdate x y payload) s =
      .next { s with queue := rest, response := some (.host, .frame (some ⟨x, y, unpackLeds payload⟩)) }

/-- 43_serial_frame_reader R182, R185 as the arm of UNRECOGNISED_BYTE (log entry 6): the byte alone is dropped and the reader goes
on with the byte after it. -/
def Obligations.UnrecognisedUnitIsDroppedAlone : Prop :=
  ∀ (s : State) (b : Byte) (rest : List Byte), s.fault = 0 → b ≠ 0x1A#8 → s.queue = b :: rest →
    exec (.unrecognisedByte b) s = exec .nextFrame { s with queue := rest }
      ∧ exec (.unrecognisedByte b) s =
        .next { s with queue := (readFrame rest).2, response := some (.host, .frame (readFrame rest).1) }

/-! ## Faults -/

/-- 60_exceptions R254: every command with an index faults with code 3 above its range, recording its own word and port. -/
def Obligations.IndexAboveTheRangeFaults : Prop :=
  ∀ (s : State) (idx : Byte) (v : Word32), s.fault = 0 →
    (63 < idx.toNat →
      exec (.setGpio idx v) s = .next (latched s 3 (commandWord 0x01 idx v) 0)
        ∧ exec (.getGpio idx) s = .next (latched s 3 (commandWord 0x02 idx 0) 0)
        ∧ exec (.checkEdge idx) s = .next (latched s 3 (commandWord 0x07 idx 0) 0)
        ∧ exec (.fwSetGpio idx v) s = .next (latched s 3 (commandWord 0x11 idx v) 1)
        ∧ exec (.fwGetGpio idx) s = .next (latched s 3 (commandWord 0x12 idx 0) 1))
      ∧ (1 < idx.toNat →
        exec (.setAdc idx v) s = .next (latched s 3 (commandWord 0x03 idx v) 0)
          ∧ exec (.getAdc idx) s = .next (latched s 3 (commandWord 0x04 idx 0) 0)
          ∧ exec (.getDac idx) s = .next (latched s 3 (commandWord 0x06 idx 0) 0)
          ∧ exec (.fwGetAdc idx) s = .next (latched s 3 (commandWord 0x14 idx 0) 1)
          ∧ exec (.fwSetDac idx v) s = .next (latched s 3 (commandWord 0x15 idx v) 1)
          ∧ exec (.fwGetDac idx) s = .next (latched s 3 (commandWord 0x16 idx 0) 1))

/-- 60_exceptions R255: a value above the register's or byte's maximum faults with code 4 (the index in range, R261). -/
def Obligations.ValueAboveTheRangeFaults : Prop :=
  ∀ (s : State) (idx : Byte) (v : Word32), s.fault = 0 →
    (idx.toNat ≤ 63 → 1 < v.toNat →
      exec (.setGpio idx v) s = .next (latched s 4 (commandWord 0x01 idx v) 0)
        ∧ exec (.fwSetGpio idx v) s = .next (latched s 4 (commandWord 0x11 idx v) 1))
      ∧ (idx.toNat ≤ 1 → 4095 < v.toNat → exec (.setAdc idx v) s = .next (latched s 4 (commandWord 0x03 idx v) 0))
      ∧ (idx.toNat ≤ 1 → 65535 < v.toNat → exec (.fwSetDac idx v) s = .next (latched s 4 (commandWord 0x15 idx v) 1))
      ∧ (255 < v.toNat → exec (.fwPushByte v) s = .next (latched s 4 (commandWord 0x17 0 v) 1))

/-- 60_exceptions R256: a check of a GPIO index outside WATCHED faults with code 5. -/
def Obligations.CheckOfAnUnwatchedLineFaults : Prop :=
  ∀ (s : State) (line : Byte) (h : line.toNat < 64), s.fault = 0 → ⟨line.toNat, h⟩ ∉ s.params.watchOrder →
    exec (.checkEdge line) s = .next (latched s 5 (commandWord 0x07 line 0) 0)

/-- 60_exceptions R257: an advance of +infinity faults with code 6. -/
def Obligations.AdvanceOfInfinityFaults : Prop :=
  ∀ s : State, s.fault = 0 →
    exec (.advance 0x7F800000#32) s = .next (latched s 6 (commandWord 0x08 0 0x7F800000#32) 0)

/-- 60_exceptions R258: a push on a full queue faults with code 7, and with an unbounded capacity no push does. -/
def Obligations.PushOnAFullQueueFaults : Prop :=
  ∀ (s : State) (b : Word32), s.fault = 0 →
    (b.toNat ≤ 255 → s.params.queueCapacity = some s.queue.length →
      exec (.fwPushByte b) s = .next (latched s 7 (commandWord 0x17 0 b) 1))
      ∧ (s.params.queueCapacity = none → ∃ t, exec (.fwPushByte b) s = .next t ∧ t.fault ≠ 7)

/-- 60_exceptions R253: a defined opcode on the other port faults with code 2, whatever its other fields. -/
def Obligations.OpcodeOnTheOtherPortFaults : Prop :=
  ∀ (s : State) (c : Command) (rest : List Command), s.bus = c :: rest → s.fault = 0 →
    (opNumber c ∈ [0x01, 0x02, 0x03, 0x04, 0x06, 0x07, 0x08, 0x09] → c.port = .firmware →
      step s = .next (latched { s with bus := rest } 2 c.word 1))
      ∧ (opNumber c ∈ [0x11, 0x12, 0x14, 0x15, 0x16, 0x17, 0x18] → c.port = .host →
        step s = .next (latched { s with bus := rest } 2 c.word 0))

/-- 60_exceptions R252, R261, 30_encoding R86, R87: an undefined opcode on either port, and on its own port a defined one with a
nonzero RSV, reserved IDX or reserved DATA, faults with code 1. -/
def Obligations.UndefinedOrReservedEncodingFaults : Prop :=
  ∀ (s : State) (c : Command) (rest : List Command), s.bus = c :: rest → s.fault = 0 →
    (opNumber c ∉ [0x01, 0x02, 0x03, 0x04, 0x06, 0x07, 0x08, 0x09, 0x11, 0x12, 0x14, 0x15, 0x16, 0x17, 0x18] →
      step s = .next (latched { s with bus := rest } 1 c.word (portBit c.port)))
      ∧ ((c.port = .host ∧ opNumber c ∈ [0x01, 0x02, 0x03, 0x04, 0x06, 0x07, 0x08, 0x09])
          ∨ (c.port = .firmware ∧ opNumber c ∈ [0x11, 0x12, 0x14, 0x15, 0x16, 0x17, 0x18]) →
        c.word.toNat / 2 ^ 32 % 65536 ≠ 0
          ∨ (opNumber c ∈ [0x08, 0x09, 0x17, 0x18] ∧ c.word.toNat / 2 ^ 48 % 256 ≠ 0)
          ∨ (opNumber c ∈ [0x02, 0x04, 0x06, 0x07, 0x09, 0x12, 0x14, 0x16, 0x18] ∧ c.word.toNat % 2 ^ 32 ≠ 0) →
        step s = .next (latched { s with bus := rest } 1 c.word (portBit c.port)))

/-- 60_exceptions R261, R250: on a live block the step takes exactly the fault that R89's list of checks gives the word, in R89's
order, and where the list gives none the command ends without a fault and with a response on its own port (00_scope R11,
30_encoding R85); a faulted block refuses the command before any check. That the refusal is a next state which only consumes the
command and answers nothing is the model's reading of R250 (log entries 3, 4). -/
def Obligations.StepTakesTheFirstFaultOfTheCheckList : Prop :=
  ∀ (s : State) (c : Command) (rest : List Command), s.bus = c :: rest →
    (s.fault ≠ 0 → step s = .next { s with bus := rest, response := none })
      ∧ (s.fault = 0 →
        (∀ f, commandFault s c = some f →
          step s = .next (latched { s with bus := rest } (faultCode f) c.word (portBit c.port)))
        ∧ (commandFault s c = none → ∃ t r, step s = .next t ∧ t.fault = 0 ∧ t.response = some (c.port, r)))

/-- 60_exceptions R250: once a fault is latched, any number of steps only consumes commands; the block's registers, line table,
timer, queue, events and fault registers never change again. That the refused command leaves its port with no response is the
model's reading (log entries 3, 4). -/
def Obligations.FaultedBlockStaysFrozen : Prop :=
  ∀ (k : Nat) (s t : State), s.fault ≠ 0 → steps k s = .next t →
    k ≤ s.bus.length ∧ t = { s with bus := s.bus.drop k, response := if k = 0 then s.response else none }

/-! ## Invariants and whole-machine rules -/

/-- Every step keeps the invariant: the parameters stay legal (70_reset_and_hazards R280), the entries of unwatched lines stay
unseeded (the model's own clause: log entry 12), TIME stays neither negative nor NaN (41_timer R143), QUEUE stays within its capacity
(10_state R32), the fault registers hold nothing or a command with that very fault (10_state R33), and every event is a watched
line's number (42_interrupt_dispatcher R165). -/
def Obligations.EveryStepKeepsTheInvariant : Prop :=
  ∀ s t : State, Invariant s → step s = .next t → Invariant t

/-- The invariant holds at construction, for every legal assignment of the parameters (10_state R39), and so at `State.reset`,
whose parameters are the model's choice (log entry 1). Its clause on the entries of unwatched lines, which R39 does not list, is
the model's too (log entry 12). -/
def Obligations.ConstructionMeetsTheInvariant : Prop :=
  (∀ P : Params, legalParams P = true → Invariant (State.resetWith P)) ∧ Invariant State.reset

/-- 70_reset_and_hazards R280 (its last sentence): the construction parameters never change. -/
def Obligations.NoStepChangesTheParameters : Prop :=
  ∀ s t : State, step s = .next t → t.params = s.params

/-- 10_state R25, R30, R31, R32, 60_exceptions R269: each element of the block is written only by the opcodes that own it. -/
def Obligations.EachElementHasItsOnlyWriters : Prop :=
  ∀ s t : State, step s = .next t →
    (t.gpio ≠ s.gpio → ∃ c ∈ s.bus.head?, opNumber c = 0x01 ∨ opNumber c = 0x11)
      ∧ (t.adc ≠ s.adc → ∃ c ∈ s.bus.head?, opNumber c = 0x03)
      ∧ (t.dac ≠ s.dac → ∃ c ∈ s.bus.head?, opNumber c = 0x15)
      ∧ (t.line ≠ s.line → ∃ c ∈ s.bus.head?, opNumber c = 0x07)
      ∧ (t.irqOut ≠ s.irqOut → ∃ c ∈ s.bus.head?, opNumber c = 0x07)
      ∧ (t.time ≠ s.time → ∃ c ∈ s.bus.head?, opNumber c = 0x08)
      ∧ (t.queue ≠ s.queue → ∃ c ∈ s.bus.head?, opNumber c = 0x09 ∨ opNumber c = 0x17)

/-- 60_exceptions R260, R262: whatever a word says, a host command never writes a DAC register or lengthens QUEUE, and a firmware
command never writes an ADC register, checks an edge, advances the clock or takes a byte from QUEUE. -/
def Obligations.PortsConfineWhatACommandWrites : Prop :=
  ∀ (s t : State) (c : Command) (rest : List Command), s.bus = c :: rest → step s = .next t →
    (c.port = .host → t.dac = s.dac ∧ ∃ n, t.queue = s.queue.drop n)
      ∧ (c.port = .firmware →
        t.adc = s.adc ∧ t.line = s.line ∧ t.irqOut = s.irqOut ∧ t.time = s.time ∧ s.queue <+: t.queue)

/-- 42_interrupt_dispatcher R160, R165, R167: the only step that adds an event is a CHECK_EDGE of a watched line whose value
differs from its entry; it adds exactly that line's event and reports triggered. -/
def Obligations.EventsComeOnlyFromTriggeredChecks : Prop :=
  ∀ s t : State, step s = .next t →
    t.irqOut = s.irqOut
      ∨ ∃ (l : Fin 64) (rest : List Command), s.bus = Opcode.checkEdge.command (lineIdx l) 0 :: rest
        ∧ s.watched l = true ∧ changed s l = true ∧ t.irqOut = s.irqOut ++ [⟨s.params.irqOf[l.val]⟩]
        ∧ t.readLine l = .seen (s.readGpio l) ∧ t.response = some (.host, .value32 1)

/-- 42_interrupt_dispatcher R170: a second check with no write between finds the stored value and fires nothing. -/
def Obligations.SecondCheckFiresNothing : Prop :=
  ∀ (s t : State) (line : Byte), s.fault = 0 → exec (.checkEdge line) s = .next t → t.fault = 0 →
    exec (.checkEdge line) t = .next { t with response := some (.host, .value32 0) }

/-- 40_register_file R122, 42_interrupt_dispatcher R162, R164: after two writes of a watched line, each from either port, the check
sees the later value alone. It takes that value into the entry and fires exactly if the entry held the other value before; an
unseeded entry is seeded and does not fire, and a change undone before the check is not seen. -/
def Obligations.CheckSeesOnlyTheLatestWrite : Prop :=
  ∀ (s : State) (p q : Port) (line : Byte) (v w : Word32) (h : line.toNat < 64), s.fault = 0 → v.toNat ≤ 1 →
    w.toNat ≤ 1 → ⟨line.toNat, h⟩ ∈ s.params.watchOrder →
    ∃ t₁ t₂ t₃ fires, exec (gpioWrite p line v) s = .next t₁ ∧ exec (gpioWrite q line w) t₁ = .next t₂
      ∧ exec (.checkEdge line) t₂ = .next t₃
      ∧ (fires = true ↔ ∃ prev, s.line[line.toNat]'h = .seen prev ∧ BitVec.ofNat 1 w.toNat ≠ prev)
      ∧ t₃.response = some (.host, .value32 (if fires = true then 1 else 0))
      ∧ t₃.irqOut = (if fires = true then s.irqOut ++ [⟨s.params.irqOf[line.toNat]'h⟩] else s.irqOut)
      ∧ t₃.readLine ⟨line.toNat, h⟩ = .seen (BitVec.ofNat 1 w.toNat)

/-- 42_interrupt_dispatcher R165, R169: the checks of one cycle emit the events of the changed lines, each once, in WATCH_ORDER,
and leave every watched entry at its line's value. -/
def Obligations.DispatchEmitsChangedLinesInWatchOrder : Prop :=
  ∀ (s : State) (rest : List Command), s.fault = 0 → s.params.watchOrder.Nodup →
    s.bus = dispatchCommands s.params ++ rest →
    ∃ t, steps s.params.watchOrder.length s = .next t ∧ t.bus = rest ∧ t.gpio = s.gpio ∧ t.fault = 0
      ∧ t.irqOut = s.irqOut ++ (s.params.watchOrder.filter (changed s)).map (fun l => ⟨s.params.irqOf[l.val]⟩)
      ∧ ∀ l ∈ s.params.watchOrder, t.readLine l = .seen (s.readGpio l)

/-! ## The timer -/

/-- 41_timer R143: an advance that does not fault never decreases TIME and never makes it negative or NaN. For binary64 values that
are neither, the order of the values is the order of the bits. -/
def Obligations.AdvanceNeverDecreasesTime : Prop :=
  ∀ (s : State) (e : Word32), s.fault = 0 → isFinitePositive64 s.params.timerScale = true → s.time.toNat ≤ inf64 →
    e ≠ 0x7F800000#32 →
    ∃ t, exec (.advance e) s = .next t ∧ t.fault = 0 ∧ s.time.toNat ≤ t.time.toNat ∧ t.time.toNat ≤ inf64

/-- 41_timer R142, R144: an operand that is not above zero, NaN and -infinity among them, leaves no trace but its response. -/
def Obligations.ClampedAdvanceLeavesNoTrace : Prop :=
  ∀ (s : State) (e : Word32), s.fault = 0 → isFinitePositive64 s.params.timerScale = true → s.time.toNat ≤ inf64 →
    gtZero32 e = false → exec (.advance e) s = .next { s with response := some (.host, .ack) }

/-- 41_timer R147: TIME at +infinity stays there. -/
def Obligations.TimeAtInfinityStaysThere : Prop :=
  ∀ (s : State) (e : Word32), s.fault = 0 → isFinitePositive64 s.params.timerScale = true →
    s.time = 0x7FF0000000000000#64 → e ≠ 0x7F800000#32 →
    exec (.advance e) s = .next { s with response := some (.host, .ack) }

/-- 41_timer R141: the operand is widened exactly; a binary64 unit is 2^-1074 and a binary32 unit 2^-149. -/
def Obligations.WideningIsExact : Prop :=
  ∀ e : Word32, mag32 e < inf32 →
    mag64 (widen e) < inf64 ∧ units64 (widen e) = units32 e * 2 ^ 925 ∧ (widen e).msb = e.msb

/-- 00_scope R12: binary64 rounding, to nearest with ties to even and infinity on overflow only, is what `round64` gives, and the
sum and the product of finite operands are the exact sum and product so rounded, with the sign of the exact value; an exact sum
of zero is +0 but for two negative zeros. -/
def Obligations.RoundingIsToNearestTiesToEven : Prop :=
  (∀ n k : Nat, nearestEven 52 inf64 n (2 ^ k) (round64 n k))
    ∧ ∀ a b : Word64, mag64 a < inf64 → mag64 b < inf64 →
      nearestEven 52 inf64 (units64 a * units64 b) (2 ^ 1074) (mag64 (fmul64 a b))
        ∧ (fmul64 a b).msb = (a.msb != b.msb)
        ∧ nearestEven 52 inf64 (signedUnits64 a + signedUnits64 b).natAbs 1 (mag64 (fadd64 a b))
        ∧ (fadd64 a b).msb =
          (if signedUnits64 a + signedUnits64 b = 0 then a.msb && b.msb
            else decide (signedUnits64 a + signedUnits64 b < 0))

/-- 45_orchestrator R217, 00_scope R12: the sample period is 1 / SAMPLE_RATE rounded to nearest even in binary32, for every positive
SAMPLE_RATE. The exact quotient of a finite `x` of `u` units is `2^298 / u` units. At SAMPLE_RATE = +infinity the period is +0;
where the quotient overflows the period is +infinity and the host's own advance has the fault NonFiniteElapsed, which is the
model's inference (log entry 14). -/
def Obligations.SamplePeriodIsTheNearestQuotient : Prop :=
  (∀ x : Word32, gtZero32 x = true → mag32 x < inf32 →
      (recip32 x).msb = false ∧ nearestEven 23 inf32 (2 ^ 298) (units32 x) (mag32 (recip32 x)))
    ∧ recip32 0x7F800000#32 = 0
    ∧ ∀ s : State, commandFault s (advanceCommand s.params) =
      if recip32 s.params.sampleRate = 0x7F800000#32 then some .nonFiniteElapsed else none

/-! ## The serial stream -/

/-- 43_serial_frame_reader R183: LED `2k` is the high nibble of payload byte `k` and LED `2k + 1` the low nibble. -/
def Obligations.LedsAreTheNibblesHighFirst : Prop :=
  ∀ (payload : List Byte) (k : Nat) (h : k < payload.length),
    (unpackLeds payload)[2 * k]? = some (BitVec.ofNat 4 (payload[k].toNat / 16))
      ∧ (unpackLeds payload)[2 * k + 1]? = some (BitVec.ofNat 4 (payload[k].toNat % 16))

/-- 43_serial_frame_reader R188: byte `k` of the packed values is `16 leds[2k] + leds[2k+1]`, the frame is the tag, `x`, `y` and
those bytes, and packing and unpacking are inverse both ways, on 64 values and on 32 bytes. -/
def Obligations.NibblePackingRoundTrips : Prop :=
  (∀ leds : List Level, leds.length = 64 → (packLeds leds).length = 32 ∧ unpackLeds (packLeds leds) = leds
      ∧ ∀ (k : Nat) (a b : Level), leds[2 * k]? = some a → leds[2 * k + 1]? = some b →
        (packLeds leds)[k]? = some (BitVec.ofNat 8 (16 * a.toNat + b.toNat)))
    ∧ (∀ q : Quad, frameBytes q = 0x1A#8 :: q.x :: q.y :: packLeds q.leds)
    ∧ (∀ bytes : List Byte, bytes.length = 32 → (unpackLeds bytes).length = 64 ∧ packLeds (unpackLeds bytes) = bytes)

/-- 43_serial_frame_reader R191: NEXT_FRAME on a nonempty queue removes at least one byte, and 35 more than the unrecognised bytes
it skipped where it returns a frame; a drain of `n` bytes ends within `n / 35 + 1` commands and leaves QUEUE empty. -/
def Obligations.DrainEndsWithinItsBound : Prop :=
  ∀ s : State, s.fault = 0 →
    (∃ t, exec .nextFrame s = .next t ∧ (s.queue ≠ [] → t.queue.length < s.queue.length)
      ∧ ∀ q, t.response = some (.host, .frame (some q)) →
        ∃ junk rest, (∀ b ∈ junk, b ≠ 0x1A#8) ∧ s.queue = junk ++ 0x1A#8 :: rest
          ∧ t.queue.length + junk.length + 35 = s.queue.length)
      ∧ ∃ frames t, drain (s.queue.length / 35 + 1) s = some (frames, t) ∧ t.queue = []
        ∧ frames.length ≤ s.queue.length / 35

/-- 30_encoding R97, 43_serial_frame_reader R181, R182, R188: a quadrant pushed byte by byte through the firmware port into an
empty queue that has room comes back whole from the next NEXT_FRAME, and QUEUE is empty again. -/
def Obligations.PushedQuadrantComesBackWhole : Prop :=
  ∀ (s : State) (q : Quad), s.fault = 0 → s.queue = [] → (∀ n, s.params.queueCapacity = some n → 35 ≤ n) →
    q.leds.length = 64 → s.bus = pushQuad q ++ [nextFrameCommand] →
    steps 36 s = .next { s with bus := [], response := some (.host, .frame (some q)) }

/-! ## The host's cycle -/

/-- 45_orchestrator R213: `adc_of` of a finite value is the exact clamped product rounded half up; NaN and -infinity give 0 and
+infinity 4095; the mapping never decreases. -/
def Obligations.AdcMappingRoundsTheClampedProduct : Prop :=
  (∀ v : Word32, mag32 v < inf32 → (adcOf v).toNat = ⌊4095 * max 0 (min (value32 v) 1) + 1 / 2⌋₊)
    ∧ (∀ v : Word32, isNan32 v = true → adcOf v = 0)
    ∧ adcOf 0xFF800000#32 = 0 ∧ adcOf 0x7F800000#32 = 4095
    ∧ (∀ v w : Word32, mag32 v < inf32 → mag32 w < inf32 → value32 v ≤ value32 w → (adcOf v).toNat ≤ (adcOf w).toNat)

/-- 45_orchestrator R211 to R215: the command of an INPUT_MAP entry never faults and writes the mapped value into the entry's
register, all other registers kept. -/
def Obligations.InputEntryWritesItsMappedValue : Prop :=
  ∀ (s : State) (input : Nat → HostInput) (row : InputRow) (rest : List Command), s.fault = 0 →
    s.bus = inputCommand input row :: rest →
    step s = .next (match row with
      | .knob n c => { s with bus := rest, response := some (.host, .ack), adc := s.adc.set c.val (adcOf (input n).value) }
      | .button n l =>
        { s with bus := rest, response := some (.host, .ack),
                 gpio := s.gpio.set l.val (if mag32 (input n).value = 0 then 0 else 1) }
      | .jackDetect n l =>
        { s with bus := rest, response := some (.host, .ack),
                 gpio := s.gpio.set l.val (if (input n).connected = true then 1 else 0) }
      | .jackLevel n l =>
        { s with bus := rest, response := some (.host, .ack),
                 gpio := s.gpio.set l.val
                   (if (input n).connected = true ∧ gtZero32 (input n).value = true then 1 else 0) })

/-- 45_orchestrator R219, R220: reading an OUTPUT_MAP entry drives its output: 8.0 V or 0.0 V from a line; `10 d / 65536` V and the
indicator `d / 65536` from a DAC channel; in units of 1/65536 (log entry 13). That one read gives both the volts and the
indicator is log entry 15's, and that the read and the output are two steps is log entry 9's. -/
def Obligations.OutputEntryDrivesItsVolts : Prop :=
  ∀ (s : State) (row : OutputRow) (rest : List OutputRow), s.fault = 0 → s.phase = .samplingOutputs →
    s.outTodo = row :: rest → s.bus = [outputCommand row] →
    ∃ t u, step s = .next t ∧ step t = .next u ∧ u.outTodo = rest ∧ u.fault = 0
      ∧ u.outputs.find? (fun o => o.output = row.output) = some (match row.source with
        | .gpio l => ⟨row.output, ⟨if s.readGpio l = 1 then 524288 else 0⟩, none⟩
        | .dac c => ⟨row.output, ⟨10 * (s.readDac c).toNat⟩, some ⟨(s.readDac c).toNat⟩⟩)

/-- 45_orchestrator R210: PHASE moves only to the next phase of the cycle. That it moves only when no command waits is the model's
host move (log entry 2). -/
def Obligations.PhaseMovesOnlyToItsSuccessor : Prop :=
  ∀ s t : State, step s = .next t →
    t.phase = s.phase ∨ (s.bus = [] ∧ (s.phase, t.phase) ∈
      [(.idle, .samplingInputs), (.samplingInputs, .dispatchingInterrupts), (.dispatchingInterrupts, .advancingClock),
       (.advancingClock, .runningFirmware), (.runningFirmware, .samplingOutputs), (.samplingOutputs, .drainingSerial),
       (.drainingSerial, .idle)])

/-- 45_orchestrator R224: no command the host presents in its own turn breaks the contract, for legal parameters whose sample
period is finite (log entry 14). -/
def Obligations.HostPresentsNoFaultingCommand : Prop :=
  ∀ s t : State, s.bus = [] → legalParams s.params = true → recip32 s.params.sampleRate ≠ 0x7F800000#32 →
    step s = .next t → ∀ c ∈ t.bus, c.port = .host → commandFault t c = none

/-- 45_orchestrator R222, R223: at each delivery the connection is drawn anew; the frame is delivered or lost, nothing faults, and
the next frame is asked for either way. The draw is the next one the sample lists, used up, or a free value of the draw's number
where it lists none; these lists, the record of deliveries and the counter are the model's (log entries 9, 10). -/
def Obligations.DeliveryFollowsItsOwnDraw : Prop :=
  ∀ (s : State) (q : Quad) (present : Bool) (draws : List Bool), s.fault = 0 → s.phase = .drainingSerial →
    s.bus = [] → s.response = some (.host, .frame (some q)) →
    (s.current.presence = present :: draws
      ∨ (s.current.presence = [] ∧ draws = [] ∧ present = Config.accessoryPresent s.draws)) →
    step s = .next { s with
      delivered := if present = true then s.delivered ++ [q] else s.delivered,
      current := { s.current with presence := draws },
      draws := s.draws + 1,
      bus := [⟨.host, 0x0900000000000000#64⟩] }

/-- 45_orchestrator R222, R226, 70_reset_and_hazards R293: the drain phase ends in Idle with QUEUE empty, within two steps for each
frame and two more, whatever the accessory does. That a frame takes two steps, the block's and the host's, is log entry 9's. -/
def Obligations.DrainPhaseEndsInIdle : Prop :=
  ∀ s : State, s.fault = 0 → s.phase = .drainingSerial → s.bus = [⟨.host, 0x0900000000000000#64⟩] →
    ∃ k t, k ≤ 2 * (s.queue.length / 35 + 1) ∧ steps k s = .next t ∧ t.phase = .idle ∧ t.queue = [] ∧ t.bus = []
      ∧ t.fault = 0 ∧ t.gpio = s.gpio ∧ t.line = s.line ∧ t.time = s.time

/-- 45_orchestrator R211, R212, R216 to R219, R222, R228: what the host presents on entering each phase, once the commands of the
phase before are consumed. SamplingInputs: every INPUT_MAP entry's command, in order. DispatchingInterrupts: one check of each
line of WATCH_ORDER, in order. AdvancingClock: one advance by the sample period. RunningFirmware: the firmware's words on its
port. SamplingOutputs: the read of each OUTPUT_MAP row in turn, its output written before the next. DrainingSerial: NEXT_FRAME.
Idle: nothing, until the next callback. The callbacks, their draws and the place in OUTPUT_MAP are the model's (log entries 2, 9,
10). -/
def Obligations.HostPresentsTheCommandsOfEachPhase : Prop :=
  ∀ s : State, s.fault = 0 → s.bus = [] →
    (s.phase = .idle → s.samples = [] → step s = .next s)
      ∧ (∀ d later, s.phase = .idle → s.samples = d :: later →
        step s = .next { s with
          phase := .samplingInputs, samples := later, current := d, draws := s.draws + 1,
          bus := s.params.inputMap.map
            (inputCommand fun n => (d.inputs[n]?).getD (Config.hostInput s.draws n)) })
      ∧ (s.phase = .samplingInputs →
        step s = .next { s with
          phase := .dispatchingInterrupts,
          bus := s.params.watchOrder.map fun l => ⟨.host, commandWord 0x07 (BitVec.ofNat 8 l.val) 0⟩ })
      ∧ (s.phase = .dispatchingInterrupts →
        step s = .next { s with
          phase := .advancingClock,
          bus := [⟨.host, commandWord 0x08 0 (recip32 s.params.sampleRate)⟩] })
      ∧ (s.phase = .advancingClock →
        step s = .next { s with
          phase := .runningFirmware, bus := s.current.firmware.map fun w => ⟨.firmware, w⟩ })
      ∧ (s.phase = .runningFirmware →
        step s = .next { s with
          phase := .samplingOutputs, outTodo := s.params.outputMap,
          bus := s.params.outputMap.head?.toList.map outputCommand })
      ∧ (∀ row rest v, s.phase = .samplingOutputs → s.outTodo = row :: rest →
        s.response = some (.host, .value32 v) →
        step s = .next { s with
          outputs := setOutput (outputValue row v) s.outputs, outTodo := rest,
          bus := rest.head?.toList.map outputCommand })
      ∧ (s.phase = .samplingOutputs → s.outTodo = [] →
        step s = .next { s with phase := .drainingSerial, bus := [⟨.host, 0x0900000000000000#64⟩] })
      ∧ (s.phase = .drainingSerial → s.response = some (.host, .frame none) →
        step s = .next { s with phase := .idle, current := Sample.none })
end

