-- ==== Sys2Proof/Laws/Decode.lean ====
section
/-! SUPPORT. The fields of an encoded command word, and the opcode map read both ways. -/

namespace Sys2Proof

/-- The bits of a command word (30_encoding R80). -/
theorem commandWord_getLsbD (op idx : Byte) (data : Word32) (i : Nat) :
    (commandWord op idx data).getLsbD i =
      if i < 32 then data.getLsbD i else if i < 48 then false
      else if i < 56 then idx.getLsbD (i - 48) else op.getLsbD (i - 56) := by
  have h : (commandWord op idx data).getLsbD i = (((op ++ idx) ++ 0#16) ++ data).getLsbD i := rfl
  rw [h, BitVec.getLsbD_append]
  by_cases h1 : i < 32
  · simp [h1]
  rw [BitVec.getLsbD_append]
  by_cases h2 : i < 48
  · have : i - 32 < 16 := by omega
    simp [h1, h2, this]
  rw [BitVec.getLsbD_append]
  have h2' : ¬ i - 32 < 16 := by omega
  have e1 : i - 32 - 16 = i - 48 := by omega
  have e2 : i - 48 - 8 = i - 56 := by omega
  by_cases h3 : i < 56
  · have : i - 48 < 8 := by omega
    simp [h1, h2, h3, h2', e1, this]
  · have : ¬ i - 48 < 8 := by omega
    simp [h1, h2, h3, h2', e1, e2, this]

@[simp] theorem opField_commandWord (op idx : Byte) (data : Word32) : opField (commandWord op idx data) = op := by
  ext i hi
  simp only [opField, BitVec.getElem_extractLsb', commandWord_getLsbD]
  have h1 : ¬ 56 + i < 32 := by omega
  have h2 : ¬ 56 + i < 48 := by omega
  have h3 : ¬ 56 + i < 56 := by omega
  simp [h1, h2, hi]

@[simp] theorem idxField_commandWord (op idx : Byte) (data : Word32) : idxField (commandWord op idx data) = idx := by
  ext i hi
  simp only [idxField, BitVec.getElem_extractLsb', commandWord_getLsbD]
  have h1 : ¬ 48 + i < 32 := by omega
  have h3 : 48 + i < 56 := by omega
  simp [h1, h3, hi]

@[simp] theorem rsvField_commandWord (op idx : Byte) (data : Word32) : rsvField (commandWord op idx data) = 0 := by
  ext i hi
  simp only [rsvField, BitVec.getElem_extractLsb', commandWord_getLsbD]
  have h2 : 32 + i < 48 := by omega
  simp [h2]

@[simp] theorem dataField_commandWord (op idx : Byte) (data : Word32) : dataField (commandWord op idx data) = data := by
  ext i hi
  simp [dataField, BitVec.getElem_extractLsb', commandWord_getLsbD, hi]

@[simp] theorem opcodeOf_code (o : Opcode) : opcodeOf o.code = some o := by cases o <;> rfl

/-- An OP field that is an opcode's is that opcode's code (R82). -/
theorem code_of_opcodeOf {op : Byte} {o : Opcode} (h : opcodeOf op = some o) : o.code = op := by
  have : ∀ op : Byte, (opcodeOf op).all fun o => o.code == op := by decide
  have := this op
  simpa [h] using this

end Sys2Proof
end

