-- ==== Sys2Proof/Laws/Float.lean ====
section
/-! SUPPORT. What the rounding can do, said once: the values of magnitudes in their order, the two neighbours of an exact value,
the magnitude that a rounding gives, and packing it with a sign (00_scope R12). -/

namespace Sys2Proof.Machine

/-- The value of a magnitude of significand `q` and exponent step `j`. -/
theorem unitsOf_eq (f j q : Nat) (hq : q ≤ 2 ^ (f + 1)) (h : j = 0 ∨ 2 ^ f ≤ q) :
    unitsOf f (j * 2 ^ f + q) = q * 2 ^ j := by
  have hp : 0 < 2 ^ f := by positivity
  rw [pow_succ] at hq
  rw [unitsOf, Nat.shiftRight_eq_div_pow, Nat.one_shiftLeft, Nat.shiftLeft_eq]
  rw [show (j * 2 ^ f + q) / 2 ^ f = j + q / 2 ^ f by rw [Nat.add_comm, Nat.add_mul_div_right _ _ hp, Nat.add_comm]]
  rw [show (j * 2 ^ f + q) % 2 ^ f = q % 2 ^ f by rw [Nat.add_comm, Nat.add_mul_mod_self_right]]
  rcases Nat.lt_or_ge q (2 ^ f) with h1 | h1
  · obtain rfl : j = 0 := by omega
    simp [Nat.div_eq_of_lt h1]
  rcases Nat.lt_or_ge q (2 ^ f * 2) with h2 | h2
  · have e : q / 2 ^ f = 1 := by
      apply Nat.div_eq_of_lt_le <;> omega
    have := Nat.div_add_mod q (2 ^ f)
    rw [e] at this
    rw [e, if_neg (by omega)]
    congr 1
    · omega
  · obtain rfl : q = 2 ^ f * 2 := by omega
    rw [Nat.mul_div_right _ hp, Nat.mul_mod_right, if_neg (by omega), Nat.zero_add,
      show j + 2 - 1 = j + 1 by omega, pow_succ]; ring

/-- Magnitudes in the order of their bits are in the order of their values. -/
theorem unitsOf_strictMono (f : Nat) : StrictMono (unitsOf f) := by
  apply strictMono_nat_of_lt_succ
  intro m
  have hp : 0 < 2 ^ f := by positivity
  have hd := Nat.div_add_mod m (2 ^ f)
  have hr := Nat.mod_lt m hp
  rcases Nat.eq_zero_or_pos (m / 2 ^ f) with h | h
  · rw [h] at hd
    have a := unitsOf_eq f 0 m (by rw [pow_succ]; omega) (.inl rfl)
    have b := unitsOf_eq f 0 (m + 1) (by rw [pow_succ]; omega) (.inl rfl)
    simp only [Nat.zero_mul, Nat.zero_add] at a b
    rw [a, b]; omega
  · obtain ⟨j, hj⟩ : ∃ j, m / 2 ^ f = j + 1 := ⟨m / 2 ^ f - 1, by omega⟩
    rw [hj] at hd
    have a := unitsOf_eq f j (m % 2 ^ f + 2 ^ f) (by rw [pow_succ]; omega) (.inr (by omega))
    have b := unitsOf_eq f j (m % 2 ^ f + 2 ^ f + 1) (by rw [pow_succ]; omega) (.inr (by omega))
    rw [show j * 2 ^ f + (m % 2 ^ f + 2 ^ f) = m by rw [← hd]; simp; ring] at a
    rw [show j * 2 ^ f + (m % 2 ^ f + 2 ^ f + 1) = m + 1 by rw [← Nat.add_assoc, Nat.add_left_inj, ← hd]; simp; ring] at b
    rw [a, b]
    exact Nat.mul_lt_mul_of_pos_right (by omega) (by positivity)

/-- A whole number of at most `f + 1` significant bits times a power of two is the value of a magnitude. -/
theorem exists_unitsOf (f t : Nat) : ∀ q < 2 ^ (f + 1), ∃ m, unitsOf f m = q * 2 ^ t := by
  induction t with
  | zero => exact fun q h => ⟨_, unitsOf_eq f 0 q h.le (.inl rfl)⟩
  | succ t ih =>
    intro q h
    rcases Nat.lt_or_ge q (2 ^ f) with hq | hq
    · obtain ⟨m, hm⟩ := ih (2 * q) (by rw [pow_succ]; omega)
      exact ⟨m, by rw [hm, pow_succ]; ring⟩
    · exact ⟨_, unitsOf_eq f (t + 1) q h.le (.inr hq)⟩

/-- Everything a rounding can do: the exact value lies between two neighbouring magnitudes, and the result, unless infinity is
nearer, is the nearer of the two, the even one on a tie. -/
theorem roundMag_cases (f maxMag n k : Nat) :
    ∃ m up, unitsOf f m * 2 ^ k ≤ n ∧ n < unitsOf f (m + 1) * 2 ^ k ∧ roundMag (f + 1) maxMag n k = min (m + up) maxMag ∧
      ((up = 0 ∧ 2 * n < (unitsOf f m + unitsOf f (m + 1)) * 2 ^ k)
        ∨ (up = 1 ∧ (unitsOf f m + unitsOf f (m + 1)) * 2 ^ k < 2 * n)
        ∨ (2 * n = (unitsOf f m + unitsOf f (m + 1)) * 2 ^ k ∧ up ≤ 1 ∧ (f = 0 ∨ (m + up) % 2 = 0))) := by
  set shift := max (Nat.log2 n + 1 - (f + 1)) k with hs
  set j := shift - k with hj
  set q := n / 2 ^ shift with hq
  set r := n % 2 ^ shift with hr
  have hsk : shift = j + k := by omega
  have hp : 0 < 2 ^ shift := by positivity
  have hnr : q * 2 ^ shift + r = n := by rw [hq, hr, Nat.mul_comm]; exact Nat.div_add_mod n _
  have hrl : r < 2 ^ shift := Nat.mod_lt _ hp
  have hq2 : q < 2 ^ (f + 1) := by
    rw [hq, Nat.div_lt_iff_lt_mul hp, ← pow_add]
    calc n < 2 ^ (Nat.log2 n + 1) := Nat.lt_log2_self
      _ ≤ 2 ^ (f + 1 + shift) := Nat.pow_le_pow_right (by omega) (by omega)
  have hq1 : j = 0 ∨ 2 ^ f ≤ q := by
    by_cases h : j = 0
    · exact .inl h
    · right
      have h0 : n ≠ 0 := by rintro rfl; simp at hs; omega
      rw [hq, Nat.le_div_iff_mul_le hp, ← pow_add]
      calc 2 ^ (f + shift) ≤ 2 ^ Nat.log2 n := Nat.pow_le_pow_right (by omega) (by omega)
        _ ≤ n := Nat.log2_self_le h0
  have e1 := unitsOf_eq f j q (by omega) hq1
  have e2 := unitsOf_eq f j (q + 1) (by omega) (by omega)
  rw [← Nat.add_assoc] at e2
  have p1 : q * 2 ^ j * 2 ^ k = q * 2 ^ shift := by rw [hsk, pow_add]; ring
  have p2 : (q + 1) * 2 ^ j * 2 ^ k = q * 2 ^ shift + 2 ^ shift := by rw [hsk, pow_add]; ring
  refine ⟨j * 2 ^ f + q, if 2 ^ shift < 2 * r ∨ (2 ^ shift = 2 * r ∧ q % 2 = 1) then 1 else 0, ?_, ?_, ?_, ?_⟩
  · rw [e1, p1]; omega
  · rw [e2, p2]; omega
  · simp only [roundMag, ← hs, Nat.shiftRight_eq_div_pow, Nat.shiftLeft_eq, Nat.one_mul, Nat.add_sub_cancel, ← hq, ← hr,
      ← hj]
  · rw [e1, e2, Nat.add_mul, p1, p2]
    have hev : f = 0 ∨ (j * 2 ^ f) % 2 = 0 := by
      cases f with
      | zero => exact .inl rfl
      | succ f => right; rw [pow_succ, ← Nat.mul_assoc]; simp
    split <;> omega

/-- A rounding never passes infinity's magnitude. -/
theorem roundMag_le (p maxMag n k : Nat) : roundMag p maxMag n k ≤ maxMag := min_le_right _ _

/-- Rounding never goes below a magnitude that the exact value reaches. -/
theorem le_roundMag (f maxMag n k m : Nat) (hm : m ≤ maxMag) (h : unitsOf f m * 2 ^ k ≤ n) :
    m ≤ roundMag (f + 1) maxMag n k := by
  obtain ⟨a, up, -, h2, h3, -⟩ := roundMag_cases f maxMag n k
  have : m < a + 1 := (unitsOf_strictMono f).lt_iff_lt.1 (Nat.lt_of_mul_lt_mul_right (h.trans_lt h2))
  rw [h3]; omega

/-- A magnitude's own value rounds to it. -/
theorem roundMag_exact (f maxMag k m : Nat) (hm : m ≤ maxMag) :
    roundMag (f + 1) maxMag (unitsOf f m * 2 ^ k) k = m := by
  obtain ⟨a, up, h1, h2, h3, h4⟩ := roundMag_cases f maxMag (unitsOf f m * 2 ^ k) k
  have hp : 0 < 2 ^ k := by positivity
  have l1 : m < a + 1 := (unitsOf_strictMono f).lt_iff_lt.1 (Nat.lt_of_mul_lt_mul_right h2)
  have l2 : a ≤ m := (unitsOf_strictMono f).le_iff_le.1 (Nat.le_of_mul_le_mul_right h1 hp)
  obtain rfl : a = m := by omega
  have := (unitsOf_strictMono f) (Nat.lt_succ_self a)
  have := Nat.mul_lt_mul_of_pos_right this hp
  rw [Nat.add_mul] at h4
  rw [h3]
  simp only [Nat.succ_eq_add_one] at this
  omega

/-! ## Packing a sign and a magnitude -/

theorem toNat_pack64 (neg : Bool) (m : Nat) (h : m ≤ inf64) : (pack64 neg m).toNat = m + (if neg then 2 ^ 63 else 0) := by
  unfold inf64 at h
  unfold pack64
  cases neg
  · simp; omega
  · have := Nat.two_pow_add_eq_or_of_lt (i := 63) (b := m) (by omega) 1
    simp only [if_true, BitVec.toNat_or, BitVec.toNat_ofNat]
    rw [Nat.mod_eq_of_lt (by omega), Nat.or_comm]
    simp at this ⊢; omega

theorem mag64_pack64 (neg : Bool) (m : Nat) (h : m ≤ inf64) : mag64 (pack64 neg m) = m := by
  rw [mag64, toNat_pack64 neg m h]
  unfold inf64 at h
  cases neg <;> simp <;> omega

theorem msb_pack64 (neg : Bool) (m : Nat) (h : m ≤ inf64) : (pack64 neg m).msb = neg := by
  rw [BitVec.msb_eq_decide, toNat_pack64 neg m h]
  unfold inf64 at h
  cases neg <;> simp <;> omega

end Sys2Proof.Machine
end

