-- ==== Sys2Proof/Laws/State.lean ====
section
/-! SUPPORT. The small lemmas of the state's updates: one per field per update, each true by rfl, so that no proof unfolds a record
update. -/

namespace Sys2Proof.Machine

/-! ## `State.writeGpio` -/

@[simp] theorem State.writeGpio_gpio (s : State) (l : Fin 64) (v : Bit) : (s.writeGpio l v).gpio = s.gpio.set l.val v := rfl
@[simp] theorem State.writeGpio_adc (s : State) (l : Fin 64) (v : Bit) : (s.writeGpio l v).adc = s.adc := rfl
@[simp] theorem State.writeGpio_dac (s : State) (l : Fin 64) (v : Bit) : (s.writeGpio l v).dac = s.dac := rfl
@[simp] theorem State.writeGpio_line (s : State) (l : Fin 64) (v : Bit) : (s.writeGpio l v).line = s.line := rfl
@[simp] theorem State.writeGpio_time (s : State) (l : Fin 64) (v : Bit) : (s.writeGpio l v).time = s.time := rfl
@[simp] theorem State.writeGpio_queue (s : State) (l : Fin 64) (v : Bit) : (s.writeGpio l v).queue = s.queue := rfl
@[simp] theorem State.writeGpio_fault (s : State) (l : Fin 64) (v : Bit) : (s.writeGpio l v).fault = s.fault := rfl
@[simp] theorem State.writeGpio_faultWord (s : State) (l : Fin 64) (v : Bit) : (s.writeGpio l v).faultWord = s.faultWord := rfl
@[simp] theorem State.writeGpio_faultPort (s : State) (l : Fin 64) (v : Bit) : (s.writeGpio l v).faultPort = s.faultPort := rfl
@[simp] theorem State.writeGpio_irqOut (s : State) (l : Fin 64) (v : Bit) : (s.writeGpio l v).irqOut = s.irqOut := rfl
@[simp] theorem State.writeGpio_params (s : State) (l : Fin 64) (v : Bit) : (s.writeGpio l v).params = s.params := rfl
@[simp] theorem State.writeGpio_bus (s : State) (l : Fin 64) (v : Bit) : (s.writeGpio l v).bus = s.bus := rfl
@[simp] theorem State.writeGpio_response (s : State) (l : Fin 64) (v : Bit) : (s.writeGpio l v).response = s.response := rfl
@[simp] theorem State.writeGpio_phase (s : State) (l : Fin 64) (v : Bit) : (s.writeGpio l v).phase = s.phase := rfl
@[simp] theorem State.writeGpio_samples (s : State) (l : Fin 64) (v : Bit) : (s.writeGpio l v).samples = s.samples := rfl
@[simp] theorem State.writeGpio_current (s : State) (l : Fin 64) (v : Bit) : (s.writeGpio l v).current = s.current := rfl
@[simp] theorem State.writeGpio_outTodo (s : State) (l : Fin 64) (v : Bit) : (s.writeGpio l v).outTodo = s.outTodo := rfl
@[simp] theorem State.writeGpio_outputs (s : State) (l : Fin 64) (v : Bit) : (s.writeGpio l v).outputs = s.outputs := rfl
@[simp] theorem State.writeGpio_delivered (s : State) (l : Fin 64) (v : Bit) : (s.writeGpio l v).delivered = s.delivered := rfl
@[simp] theorem State.writeGpio_draws (s : State) (l : Fin 64) (v : Bit) : (s.writeGpio l v).draws = s.draws := rfl

/-! ## `State.writeAdc` -/

@[simp] theorem State.writeAdc_gpio (s : State) (c : Fin 2) (v : BitVec 12) : (s.writeAdc c v).gpio = s.gpio := rfl
@[simp] theorem State.writeAdc_adc (s : State) (c : Fin 2) (v : BitVec 12) : (s.writeAdc c v).adc = s.adc.set c.val v := rfl
@[simp] theorem State.writeAdc_dac (s : State) (c : Fin 2) (v : BitVec 12) : (s.writeAdc c v).dac = s.dac := rfl
@[simp] theorem State.writeAdc_line (s : State) (c : Fin 2) (v : BitVec 12) : (s.writeAdc c v).line = s.line := rfl
@[simp] theorem State.writeAdc_time (s : State) (c : Fin 2) (v : BitVec 12) : (s.writeAdc c v).time = s.time := rfl
@[simp] theorem State.writeAdc_queue (s : State) (c : Fin 2) (v : BitVec 12) : (s.writeAdc c v).queue = s.queue := rfl
@[simp] theorem State.writeAdc_fault (s : State) (c : Fin 2) (v : BitVec 12) : (s.writeAdc c v).fault = s.fault := rfl
@[simp] theorem State.writeAdc_faultWord (s : State) (c : Fin 2) (v : BitVec 12) : (s.writeAdc c v).faultWord = s.faultWord := rfl
@[simp] theorem State.writeAdc_faultPort (s : State) (c : Fin 2) (v : BitVec 12) : (s.writeAdc c v).faultPort = s.faultPort := rfl
@[simp] theorem State.writeAdc_irqOut (s : State) (c : Fin 2) (v : BitVec 12) : (s.writeAdc c v).irqOut = s.irqOut := rfl
@[simp] theorem State.writeAdc_params (s : State) (c : Fin 2) (v : BitVec 12) : (s.writeAdc c v).params = s.params := rfl
@[simp] theorem State.writeAdc_bus (s : State) (c : Fin 2) (v : BitVec 12) : (s.writeAdc c v).bus = s.bus := rfl
@[simp] theorem State.writeAdc_response (s : State) (c : Fin 2) (v : BitVec 12) : (s.writeAdc c v).response = s.response := rfl
@[simp] theorem State.writeAdc_phase (s : State) (c : Fin 2) (v : BitVec 12) : (s.writeAdc c v).phase = s.phase := rfl
@[simp] theorem State.writeAdc_samples (s : State) (c : Fin 2) (v : BitVec 12) : (s.writeAdc c v).samples = s.samples := rfl
@[simp] theorem State.writeAdc_current (s : State) (c : Fin 2) (v : BitVec 12) : (s.writeAdc c v).current = s.current := rfl
@[simp] theorem State.writeAdc_outTodo (s : State) (c : Fin 2) (v : BitVec 12) : (s.writeAdc c v).outTodo = s.outTodo := rfl
@[simp] theorem State.writeAdc_outputs (s : State) (c : Fin 2) (v : BitVec 12) : (s.writeAdc c v).outputs = s.outputs := rfl
@[simp] theorem State.writeAdc_delivered (s : State) (c : Fin 2) (v : BitVec 12) : (s.writeAdc c v).delivered = s.delivered := rfl
@[simp] theorem State.writeAdc_draws (s : State) (c : Fin 2) (v : BitVec 12) : (s.writeAdc c v).draws = s.draws := rfl

/-! ## `State.writeDac` -/

@[simp] theorem State.writeDac_gpio (s : State) (c : Fin 2) (v : BitVec 16) : (s.writeDac c v).gpio = s.gpio := rfl
@[simp] theorem State.writeDac_adc (s : State) (c : Fin 2) (v : BitVec 16) : (s.writeDac c v).adc = s.adc := rfl
@[simp] theorem State.writeDac_dac (s : State) (c : Fin 2) (v : BitVec 16) : (s.writeDac c v).dac = s.dac.set c.val v := rfl
@[simp] theorem State.writeDac_line (s : State) (c : Fin 2) (v : BitVec 16) : (s.writeDac c v).line = s.line := rfl
@[simp] theorem State.writeDac_time (s : State) (c : Fin 2) (v : BitVec 16) : (s.writeDac c v).time = s.time := rfl
@[simp] theorem State.writeDac_queue (s : State) (c : Fin 2) (v : BitVec 16) : (s.writeDac c v).queue = s.queue := rfl
@[simp] theorem State.writeDac_fault (s : State) (c : Fin 2) (v : BitVec 16) : (s.writeDac c v).fault = s.fault := rfl
@[simp] theorem State.writeDac_faultWord (s : State) (c : Fin 2) (v : BitVec 16) : (s.writeDac c v).faultWord = s.faultWord := rfl
@[simp] theorem State.writeDac_faultPort (s : State) (c : Fin 2) (v : BitVec 16) : (s.writeDac c v).faultPort = s.faultPort := rfl
@[simp] theorem State.writeDac_irqOut (s : State) (c : Fin 2) (v : BitVec 16) : (s.writeDac c v).irqOut = s.irqOut := rfl
@[simp] theorem State.writeDac_params (s : State) (c : Fin 2) (v : BitVec 16) : (s.writeDac c v).params = s.params := rfl
@[simp] theorem State.writeDac_bus (s : State) (c : Fin 2) (v : BitVec 16) : (s.writeDac c v).bus = s.bus := rfl
@[simp] theorem State.writeDac_response (s : State) (c : Fin 2) (v : BitVec 16) : (s.writeDac c v).response = s.response := rfl
@[simp] theorem State.writeDac_phase (s : State) (c : Fin 2) (v : BitVec 16) : (s.writeDac c v).phase = s.phase := rfl
@[simp] theorem State.writeDac_samples (s : State) (c : Fin 2) (v : BitVec 16) : (s.writeDac c v).samples = s.samples := rfl
@[simp] theorem State.writeDac_current (s : State) (c : Fin 2) (v : BitVec 16) : (s.writeDac c v).current = s.current := rfl
@[simp] theorem State.writeDac_outTodo (s : State) (c : Fin 2) (v : BitVec 16) : (s.writeDac c v).outTodo = s.outTodo := rfl
@[simp] theorem State.writeDac_outputs (s : State) (c : Fin 2) (v : BitVec 16) : (s.writeDac c v).outputs = s.outputs := rfl
@[simp] theorem State.writeDac_delivered (s : State) (c : Fin 2) (v : BitVec 16) : (s.writeDac c v).delivered = s.delivered := rfl
@[simp] theorem State.writeDac_draws (s : State) (c : Fin 2) (v : BitVec 16) : (s.writeDac c v).draws = s.draws := rfl

/-! ## `State.writeLine` -/

@[simp] theorem State.writeLine_gpio (s : State) (l : Fin 64) (e : LineEntry) : (s.writeLine l e).gpio = s.gpio := rfl
@[simp] theorem State.writeLine_adc (s : State) (l : Fin 64) (e : LineEntry) : (s.writeLine l e).adc = s.adc := rfl
@[simp] theorem State.writeLine_dac (s : State) (l : Fin 64) (e : LineEntry) : (s.writeLine l e).dac = s.dac := rfl
@[simp] theorem State.writeLine_line (s : State) (l : Fin 64) (e : LineEntry) : (s.writeLine l e).line = s.line.set l.val e := rfl
@[simp] theorem State.writeLine_time (s : State) (l : Fin 64) (e : LineEntry) : (s.writeLine l e).time = s.time := rfl
@[simp] theorem State.writeLine_queue (s : State) (l : Fin 64) (e : LineEntry) : (s.writeLine l e).queue = s.queue := rfl
@[simp] theorem State.writeLine_fault (s : State) (l : Fin 64) (e : LineEntry) : (s.writeLine l e).fault = s.fault := rfl
@[simp] theorem State.writeLine_faultWord (s : State) (l : Fin 64) (e : LineEntry) : (s.writeLine l e).faultWord = s.faultWord := rfl
@[simp] theorem State.writeLine_faultPort (s : State) (l : Fin 64) (e : LineEntry) : (s.writeLine l e).faultPort = s.faultPort := rfl
@[simp] theorem State.writeLine_irqOut (s : State) (l : Fin 64) (e : LineEntry) : (s.writeLine l e).irqOut = s.irqOut := rfl
@[simp] theorem State.writeLine_params (s : State) (l : Fin 64) (e : LineEntry) : (s.writeLine l e).params = s.params := rfl
@[simp] theorem State.writeLine_bus (s : State) (l : Fin 64) (e : LineEntry) : (s.writeLine l e).bus = s.bus := rfl
@[simp] theorem State.writeLine_response (s : State) (l : Fin 64) (e : LineEntry) : (s.writeLine l e).response = s.response := rfl
@[simp] theorem State.writeLine_phase (s : State) (l : Fin 64) (e : LineEntry) : (s.writeLine l e).phase = s.phase := rfl
@[simp] theorem State.writeLine_samples (s : State) (l : Fin 64) (e : LineEntry) : (s.writeLine l e).samples = s.samples := rfl
@[simp] theorem State.writeLine_current (s : State) (l : Fin 64) (e : LineEntry) : (s.writeLine l e).current = s.current := rfl
@[simp] theorem State.writeLine_outTodo (s : State) (l : Fin 64) (e : LineEntry) : (s.writeLine l e).outTodo = s.outTodo := rfl
@[simp] theorem State.writeLine_outputs (s : State) (l : Fin 64) (e : LineEntry) : (s.writeLine l e).outputs = s.outputs := rfl
@[simp] theorem State.writeLine_delivered (s : State) (l : Fin 64) (e : LineEntry) : (s.writeLine l e).delivered = s.delivered := rfl
@[simp] theorem State.writeLine_draws (s : State) (l : Fin 64) (e : LineEntry) : (s.writeLine l e).draws = s.draws := rfl

/-! ## `State.emitIrq` -/

@[simp] theorem State.emitIrq_gpio (s : State) (n : Nat) : (s.emitIrq n).gpio = s.gpio := rfl
@[simp] theorem State.emitIrq_adc (s : State) (n : Nat) : (s.emitIrq n).adc = s.adc := rfl
@[simp] theorem State.emitIrq_dac (s : State) (n : Nat) : (s.emitIrq n).dac = s.dac := rfl
@[simp] theorem State.emitIrq_line (s : State) (n : Nat) : (s.emitIrq n).line = s.line := rfl
@[simp] theorem State.emitIrq_time (s : State) (n : Nat) : (s.emitIrq n).time = s.time := rfl
@[simp] theorem State.emitIrq_queue (s : State) (n : Nat) : (s.emitIrq n).queue = s.queue := rfl
@[simp] theorem State.emitIrq_fault (s : State) (n : Nat) : (s.emitIrq n).fault = s.fault := rfl
@[simp] theorem State.emitIrq_faultWord (s : State) (n : Nat) : (s.emitIrq n).faultWord = s.faultWord := rfl
@[simp] theorem State.emitIrq_faultPort (s : State) (n : Nat) : (s.emitIrq n).faultPort = s.faultPort := rfl
@[simp] theorem State.emitIrq_irqOut (s : State) (n : Nat) : (s.emitIrq n).irqOut = s.irqOut ++ [⟨n⟩] := rfl
@[simp] theorem State.emitIrq_params (s : State) (n : Nat) : (s.emitIrq n).params = s.params := rfl
@[simp] theorem State.emitIrq_bus (s : State) (n : Nat) : (s.emitIrq n).bus = s.bus := rfl
@[simp] theorem State.emitIrq_response (s : State) (n : Nat) : (s.emitIrq n).response = s.response := rfl
@[simp] theorem State.emitIrq_phase (s : State) (n : Nat) : (s.emitIrq n).phase = s.phase := rfl
@[simp] theorem State.emitIrq_samples (s : State) (n : Nat) : (s.emitIrq n).samples = s.samples := rfl
@[simp] theorem State.emitIrq_current (s : State) (n : Nat) : (s.emitIrq n).current = s.current := rfl
@[simp] theorem State.emitIrq_outTodo (s : State) (n : Nat) : (s.emitIrq n).outTodo = s.outTodo := rfl
@[simp] theorem State.emitIrq_outputs (s : State) (n : Nat) : (s.emitIrq n).outputs = s.outputs := rfl
@[simp] theorem State.emitIrq_delivered (s : State) (n : Nat) : (s.emitIrq n).delivered = s.delivered := rfl
@[simp] theorem State.emitIrq_draws (s : State) (n : Nat) : (s.emitIrq n).draws = s.draws := rfl

/-! ## `State.writeTime` -/

@[simp] theorem State.writeTime_gpio (s : State) (t : Word64) : (s.writeTime t).gpio = s.gpio := rfl
@[simp] theorem State.writeTime_adc (s : State) (t : Word64) : (s.writeTime t).adc = s.adc := rfl
@[simp] theorem State.writeTime_dac (s : State) (t : Word64) : (s.writeTime t).dac = s.dac := rfl
@[simp] theorem State.writeTime_line (s : State) (t : Word64) : (s.writeTime t).line = s.line := rfl
@[simp] theorem State.writeTime_time (s : State) (t : Word64) : (s.writeTime t).time = t := rfl
@[simp] theorem State.writeTime_queue (s : State) (t : Word64) : (s.writeTime t).queue = s.queue := rfl
@[simp] theorem State.writeTime_fault (s : State) (t : Word64) : (s.writeTime t).fault = s.fault := rfl
@[simp] theorem State.writeTime_faultWord (s : State) (t : Word64) : (s.writeTime t).faultWord = s.faultWord := rfl
@[simp] theorem State.writeTime_faultPort (s : State) (t : Word64) : (s.writeTime t).faultPort = s.faultPort := rfl
@[simp] theorem State.writeTime_irqOut (s : State) (t : Word64) : (s.writeTime t).irqOut = s.irqOut := rfl
@[simp] theorem State.writeTime_params (s : State) (t : Word64) : (s.writeTime t).params = s.params := rfl
@[simp] theorem State.writeTime_bus (s : State) (t : Word64) : (s.writeTime t).bus = s.bus := rfl
@[simp] theorem State.writeTime_response (s : State) (t : Word64) : (s.writeTime t).response = s.response := rfl
@[simp] theorem State.writeTime_phase (s : State) (t : Word64) : (s.writeTime t).phase = s.phase := rfl
@[simp] theorem State.writeTime_samples (s : State) (t : Word64) : (s.writeTime t).samples = s.samples := rfl
@[simp] theorem State.writeTime_current (s : State) (t : Word64) : (s.writeTime t).current = s.current := rfl
@[simp] theorem State.writeTime_outTodo (s : State) (t : Word64) : (s.writeTime t).outTodo = s.outTodo := rfl
@[simp] theorem State.writeTime_outputs (s : State) (t : Word64) : (s.writeTime t).outputs = s.outputs := rfl
@[simp] theorem State.writeTime_delivered (s : State) (t : Word64) : (s.writeTime t).delivered = s.delivered := rfl
@[simp] theorem State.writeTime_draws (s : State) (t : Word64) : (s.writeTime t).draws = s.draws := rfl

/-! ## `State.pushQueue` -/

@[simp] theorem State.pushQueue_gpio (s : State) (b : Byte) : (s.pushQueue b).gpio = s.gpio := rfl
@[simp] theorem State.pushQueue_adc (s : State) (b : Byte) : (s.pushQueue b).adc = s.adc := rfl
@[simp] theorem State.pushQueue_dac (s : State) (b : Byte) : (s.pushQueue b).dac = s.dac := rfl
@[simp] theorem State.pushQueue_line (s : State) (b : Byte) : (s.pushQueue b).line = s.line := rfl
@[simp] theorem State.pushQueue_time (s : State) (b : Byte) : (s.pushQueue b).time = s.time := rfl
@[simp] theorem State.pushQueue_queue (s : State) (b : Byte) : (s.pushQueue b).queue = s.queue ++ [b] := rfl
@[simp] theorem State.pushQueue_fault (s : State) (b : Byte) : (s.pushQueue b).fault = s.fault := rfl
@[simp] theorem State.pushQueue_faultWord (s : State) (b : Byte) : (s.pushQueue b).faultWord = s.faultWord := rfl
@[simp] theorem State.pushQueue_faultPort (s : State) (b : Byte) : (s.pushQueue b).faultPort = s.faultPort := rfl
@[simp] theorem State.pushQueue_irqOut (s : State) (b : Byte) : (s.pushQueue b).irqOut = s.irqOut := rfl
@[simp] theorem State.pushQueue_params (s : State) (b : Byte) : (s.pushQueue b).params = s.params := rfl
@[simp] theorem State.pushQueue_bus (s : State) (b : Byte) : (s.pushQueue b).bus = s.bus := rfl
@[simp] theorem State.pushQueue_response (s : State) (b : Byte) : (s.pushQueue b).response = s.response := rfl
@[simp] theorem State.pushQueue_phase (s : State) (b : Byte) : (s.pushQueue b).phase = s.phase := rfl
@[simp] theorem State.pushQueue_samples (s : State) (b : Byte) : (s.pushQueue b).samples = s.samples := rfl
@[simp] theorem State.pushQueue_current (s : State) (b : Byte) : (s.pushQueue b).current = s.current := rfl
@[simp] theorem State.pushQueue_outTodo (s : State) (b : Byte) : (s.pushQueue b).outTodo = s.outTodo := rfl
@[simp] theorem State.pushQueue_outputs (s : State) (b : Byte) : (s.pushQueue b).outputs = s.outputs := rfl
@[simp] theorem State.pushQueue_delivered (s : State) (b : Byte) : (s.pushQueue b).delivered = s.delivered := rfl
@[simp] theorem State.pushQueue_draws (s : State) (b : Byte) : (s.pushQueue b).draws = s.draws := rfl

/-! ## `State.popQueue` -/

@[simp] theorem State.popQueue_gpio (s : State) (k : Nat) : (s.popQueue k).gpio = s.gpio := rfl
@[simp] theorem State.popQueue_adc (s : State) (k : Nat) : (s.popQueue k).adc = s.adc := rfl
@[simp] theorem State.popQueue_dac (s : State) (k : Nat) : (s.popQueue k).dac = s.dac := rfl
@[simp] theorem State.popQueue_line (s : State) (k : Nat) : (s.popQueue k).line = s.line := rfl
@[simp] theorem State.popQueue_time (s : State) (k : Nat) : (s.popQueue k).time = s.time := rfl
@[simp] theorem State.popQueue_queue (s : State) (k : Nat) : (s.popQueue k).queue = s.queue.drop k := rfl
@[simp] theorem State.popQueue_fault (s : State) (k : Nat) : (s.popQueue k).fault = s.fault := rfl
@[simp] theorem State.popQueue_faultWord (s : State) (k : Nat) : (s.popQueue k).faultWord = s.faultWord := rfl
@[simp] theorem State.popQueue_faultPort (s : State) (k : Nat) : (s.popQueue k).faultPort = s.faultPort := rfl
@[simp] theorem State.popQueue_irqOut (s : State) (k : Nat) : (s.popQueue k).irqOut = s.irqOut := rfl
@[simp] theorem State.popQueue_params (s : State) (k : Nat) : (s.popQueue k).params = s.params := rfl
@[simp] theorem State.popQueue_bus (s : State) (k : Nat) : (s.popQueue k).bus = s.bus := rfl
@[simp] theorem State.popQueue_response (s : State) (k : Nat) : (s.popQueue k).response = s.response := rfl
@[simp] theorem State.popQueue_phase (s : State) (k : Nat) : (s.popQueue k).phase = s.phase := rfl
@[simp] theorem State.popQueue_samples (s : State) (k : Nat) : (s.popQueue k).samples = s.samples := rfl
@[simp] theorem State.popQueue_current (s : State) (k : Nat) : (s.popQueue k).current = s.current := rfl
@[simp] theorem State.popQueue_outTodo (s : State) (k : Nat) : (s.popQueue k).outTodo = s.outTodo := rfl
@[simp] theorem State.popQueue_outputs (s : State) (k : Nat) : (s.popQueue k).outputs = s.outputs := rfl
@[simp] theorem State.popQueue_delivered (s : State) (k : Nat) : (s.popQueue k).delivered = s.delivered := rfl
@[simp] theorem State.popQueue_draws (s : State) (k : Nat) : (s.popQueue k).draws = s.draws := rfl

/-! ## `State.respond` -/

@[simp] theorem State.respond_gpio (s : State) (p : Port) (r : Response) : (s.respond p r).gpio = s.gpio := rfl
@[simp] theorem State.respond_adc (s : State) (p : Port) (r : Response) : (s.respond p r).adc = s.adc := rfl
@[simp] theorem State.respond_dac (s : State) (p : Port) (r : Response) : (s.respond p r).dac = s.dac := rfl
@[simp] theorem State.respond_line (s : State) (p : Port) (r : Response) : (s.respond p r).line = s.line := rfl
@[simp] theorem State.respond_time (s : State) (p : Port) (r : Response) : (s.respond p r).time = s.time := rfl
@[simp] theorem State.respond_queue (s : State) (p : Port) (r : Response) : (s.respond p r).queue = s.queue := rfl
@[simp] theorem State.respond_fault (s : State) (p : Port) (r : Response) : (s.respond p r).fault = s.fault := rfl
@[simp] theorem State.respond_faultWord (s : State) (p : Port) (r : Response) : (s.respond p r).faultWord = s.faultWord := rfl
@[simp] theorem State.respond_faultPort (s : State) (p : Port) (r : Response) : (s.respond p r).faultPort = s.faultPort := rfl
@[simp] theorem State.respond_irqOut (s : State) (p : Port) (r : Response) : (s.respond p r).irqOut = s.irqOut := rfl
@[simp] theorem State.respond_params (s : State) (p : Port) (r : Response) : (s.respond p r).params = s.params := rfl
@[simp] theorem State.respond_bus (s : State) (p : Port) (r : Response) : (s.respond p r).bus = s.bus := rfl
@[simp] theorem State.respond_response (s : State) (p : Port) (r : Response) : (s.respond p r).response = some (p, r) := rfl
@[simp] theorem State.respond_phase (s : State) (p : Port) (r : Response) : (s.respond p r).phase = s.phase := rfl
@[simp] theorem State.respond_samples (s : State) (p : Port) (r : Response) : (s.respond p r).samples = s.samples := rfl
@[simp] theorem State.respond_current (s : State) (p : Port) (r : Response) : (s.respond p r).current = s.current := rfl
@[simp] theorem State.respond_outTodo (s : State) (p : Port) (r : Response) : (s.respond p r).outTodo = s.outTodo := rfl
@[simp] theorem State.respond_outputs (s : State) (p : Port) (r : Response) : (s.respond p r).outputs = s.outputs := rfl
@[simp] theorem State.respond_delivered (s : State) (p : Port) (r : Response) : (s.respond p r).delivered = s.delivered := rfl
@[simp] theorem State.respond_draws (s : State) (p : Port) (r : Response) : (s.respond p r).draws = s.draws := rfl

/-! ## `State.refuse` -/

@[simp] theorem State.refuse_gpio (s : State) : s.refuse.gpio = s.gpio := rfl
@[simp] theorem State.refuse_adc (s : State) : s.refuse.adc = s.adc := rfl
@[simp] theorem State.refuse_dac (s : State) : s.refuse.dac = s.dac := rfl
@[simp] theorem State.refuse_line (s : State) : s.refuse.line = s.line := rfl
@[simp] theorem State.refuse_time (s : State) : s.refuse.time = s.time := rfl
@[simp] theorem State.refuse_queue (s : State) : s.refuse.queue = s.queue := rfl
@[simp] theorem State.refuse_fault (s : State) : s.refuse.fault = s.fault := rfl
@[simp] theorem State.refuse_faultWord (s : State) : s.refuse.faultWord = s.faultWord := rfl
@[simp] theorem State.refuse_faultPort (s : State) : s.refuse.faultPort = s.faultPort := rfl
@[simp] theorem State.refuse_irqOut (s : State) : s.refuse.irqOut = s.irqOut := rfl
@[simp] theorem State.refuse_params (s : State) : s.refuse.params = s.params := rfl
@[simp] theorem State.refuse_bus (s : State) : s.refuse.bus = s.bus := rfl
@[simp] theorem State.refuse_response (s : State) : s.refuse.response = none := rfl
@[simp] theorem State.refuse_phase (s : State) : s.refuse.phase = s.phase := rfl
@[simp] theorem State.refuse_samples (s : State) : s.refuse.samples = s.samples := rfl
@[simp] theorem State.refuse_current (s : State) : s.refuse.current = s.current := rfl
@[simp] theorem State.refuse_outTodo (s : State) : s.refuse.outTodo = s.outTodo := rfl
@[simp] theorem State.refuse_outputs (s : State) : s.refuse.outputs = s.outputs := rfl
@[simp] theorem State.refuse_delivered (s : State) : s.refuse.delivered = s.delivered := rfl
@[simp] theorem State.refuse_draws (s : State) : s.refuse.draws = s.draws := rfl

/-! ## `State.runReader` -/

@[simp] theorem State.runReader_gpio (s : State) : s.runReader.gpio = s.gpio := rfl
@[simp] theorem State.runReader_adc (s : State) : s.runReader.adc = s.adc := rfl
@[simp] theorem State.runReader_dac (s : State) : s.runReader.dac = s.dac := rfl
@[simp] theorem State.runReader_line (s : State) : s.runReader.line = s.line := rfl
@[simp] theorem State.runReader_time (s : State) : s.runReader.time = s.time := rfl
@[simp] theorem State.runReader_queue (s : State) : s.runReader.queue = (readFrame s.queue).2 := rfl
@[simp] theorem State.runReader_fault (s : State) : s.runReader.fault = s.fault := rfl
@[simp] theorem State.runReader_faultWord (s : State) : s.runReader.faultWord = s.faultWord := rfl
@[simp] theorem State.runReader_faultPort (s : State) : s.runReader.faultPort = s.faultPort := rfl
@[simp] theorem State.runReader_irqOut (s : State) : s.runReader.irqOut = s.irqOut := rfl
@[simp] theorem State.runReader_params (s : State) : s.runReader.params = s.params := rfl
@[simp] theorem State.runReader_bus (s : State) : s.runReader.bus = s.bus := rfl
@[simp] theorem State.runReader_response (s : State) : s.runReader.response = some (.host, .frame (readFrame s.queue).1) := rfl
@[simp] theorem State.runReader_phase (s : State) : s.runReader.phase = s.phase := rfl
@[simp] theorem State.runReader_samples (s : State) : s.runReader.samples = s.samples := rfl
@[simp] theorem State.runReader_current (s : State) : s.runReader.current = s.current := rfl
@[simp] theorem State.runReader_outTodo (s : State) : s.runReader.outTodo = s.outTodo := rfl
@[simp] theorem State.runReader_outputs (s : State) : s.runReader.outputs = s.outputs := rfl
@[simp] theorem State.runReader_delivered (s : State) : s.runReader.delivered = s.delivered := rfl
@[simp] theorem State.runReader_draws (s : State) : s.runReader.draws = s.draws := rfl

/-! ## `State.present` -/

@[simp] theorem State.present_gpio (s : State) (cs : List Command) : (s.present cs).gpio = s.gpio := rfl
@[simp] theorem State.present_adc (s : State) (cs : List Command) : (s.present cs).adc = s.adc := rfl
@[simp] theorem State.present_dac (s : State) (cs : List Command) : (s.present cs).dac = s.dac := rfl
@[simp] theorem State.present_line (s : State) (cs : List Command) : (s.present cs).line = s.line := rfl
@[simp] theorem State.present_time (s : State) (cs : List Command) : (s.present cs).time = s.time := rfl
@[simp] theorem State.present_queue (s : State) (cs : List Command) : (s.present cs).queue = s.queue := rfl
@[simp] theorem State.present_fault (s : State) (cs : List Command) : (s.present cs).fault = s.fault := rfl
@[simp] theorem State.present_faultWord (s : State) (cs : List Command) : (s.present cs).faultWord = s.faultWord := rfl
@[simp] theorem State.present_faultPort (s : State) (cs : List Command) : (s.present cs).faultPort = s.faultPort := rfl
@[simp] theorem State.present_irqOut (s : State) (cs : List Command) : (s.present cs).irqOut = s.irqOut := rfl
@[simp] theorem State.present_params (s : State) (cs : List Command) : (s.present cs).params = s.params := rfl
@[simp] theorem State.present_bus (s : State) (cs : List Command) : (s.present cs).bus = s.bus ++ cs := rfl
@[simp] theorem State.present_response (s : State) (cs : List Command) : (s.present cs).response = s.response := rfl
@[simp] theorem State.present_phase (s : State) (cs : List Command) : (s.present cs).phase = s.phase := rfl
@[simp] theorem State.present_samples (s : State) (cs : List Command) : (s.present cs).samples = s.samples := rfl
@[simp] theorem State.present_current (s : State) (cs : List Command) : (s.present cs).current = s.current := rfl
@[simp] theorem State.present_outTodo (s : State) (cs : List Command) : (s.present cs).outTodo = s.outTodo := rfl
@[simp] theorem State.present_outputs (s : State) (cs : List Command) : (s.present cs).outputs = s.outputs := rfl
@[simp] theorem State.present_delivered (s : State) (cs : List Command) : (s.present cs).delivered = s.delivered := rfl
@[simp] theorem State.present_draws (s : State) (cs : List Command) : (s.present cs).draws = s.draws := rfl

/-! ## `State.enter` -/

@[simp] theorem State.enter_gpio (s : State) (p : Phase) : (s.enter p).gpio = s.gpio := rfl
@[simp] theorem State.enter_adc (s : State) (p : Phase) : (s.enter p).adc = s.adc := rfl
@[simp] theorem State.enter_dac (s : State) (p : Phase) : (s.enter p).dac = s.dac := rfl
@[simp] theorem State.enter_line (s : State) (p : Phase) : (s.enter p).line = s.line := rfl
@[simp] theorem State.enter_time (s : State) (p : Phase) : (s.enter p).time = s.time := rfl
@[simp] theorem State.enter_queue (s : State) (p : Phase) : (s.enter p).queue = s.queue := rfl
@[simp] theorem State.enter_fault (s : State) (p : Phase) : (s.enter p).fault = s.fault := rfl
@[simp] theorem State.enter_faultWord (s : State) (p : Phase) : (s.enter p).faultWord = s.faultWord := rfl
@[simp] theorem State.enter_faultPort (s : State) (p : Phase) : (s.enter p).faultPort = s.faultPort := rfl
@[simp] theorem State.enter_irqOut (s : State) (p : Phase) : (s.enter p).irqOut = s.irqOut := rfl
@[simp] theorem State.enter_params (s : State) (p : Phase) : (s.enter p).params = s.params := rfl
@[simp] theorem State.enter_bus (s : State) (p : Phase) : (s.enter p).bus = s.bus := rfl
@[simp] theorem State.enter_response (s : State) (p : Phase) : (s.enter p).response = s.response := rfl
@[simp] theorem State.enter_phase (s : State) (p : Phase) : (s.enter p).phase = p := rfl
@[simp] theorem State.enter_samples (s : State) (p : Phase) : (s.enter p).samples = s.samples := rfl
@[simp] theorem State.enter_current (s : State) (p : Phase) : (s.enter p).current = s.current := rfl
@[simp] theorem State.enter_outTodo (s : State) (p : Phase) : (s.enter p).outTodo = s.outTodo := rfl
@[simp] theorem State.enter_outputs (s : State) (p : Phase) : (s.enter p).outputs = s.outputs := rfl
@[simp] theorem State.enter_delivered (s : State) (p : Phase) : (s.enter p).delivered = s.delivered := rfl
@[simp] theorem State.enter_draws (s : State) (p : Phase) : (s.enter p).draws = s.draws := rfl

end Sys2Proof.Machine
end

