-- ==== Sys2Proof/Laws/Ops.lean ====
section
/-! SUPPORT. What each shared operation can do, said once: the provers cite these and do not unfold the operations. -/

namespace Sys2Proof.Machine

/-! ## Taking a fault (60_exceptions R250) -/

theorem State.takeFault_live (s : State) (f : BlockFault) (c : Command) (h : s.fault = 0) :
    s.takeFault f c =
      { s with response := none, fault := faultCode f, faultWord := c.word, faultPort := portBit c.port } := if_pos h

theorem State.takeFault_faulted (s : State) (f : BlockFault) (c : Command) (h : s.fault ≠ 0) :
    s.takeFault f c = s.refuse := if_neg h

@[simp] theorem State.takeFault_gpio (s : State) (f : BlockFault) (c : Command) : (s.takeFault f c).gpio = s.gpio := by
  unfold State.takeFault; split <;> rfl
@[simp] theorem State.takeFault_adc (s : State) (f : BlockFault) (c : Command) : (s.takeFault f c).adc = s.adc := by
  unfold State.takeFault; split <;> rfl
@[simp] theorem State.takeFault_dac (s : State) (f : BlockFault) (c : Command) : (s.takeFault f c).dac = s.dac := by
  unfold State.takeFault; split <;> rfl
@[simp] theorem State.takeFault_line (s : State) (f : BlockFault) (c : Command) : (s.takeFault f c).line = s.line := by
  unfold State.takeFault; split <;> rfl
@[simp] theorem State.takeFault_time (s : State) (f : BlockFault) (c : Command) : (s.takeFault f c).time = s.time := by
  unfold State.takeFault; split <;> rfl
@[simp] theorem State.takeFault_queue (s : State) (f : BlockFault) (c : Command) : (s.takeFault f c).queue = s.queue := by
  unfold State.takeFault; split <;> rfl
@[simp] theorem State.takeFault_irqOut (s : State) (f : BlockFault) (c : Command) : (s.takeFault f c).irqOut = s.irqOut := by
  unfold State.takeFault; split <;> rfl
@[simp] theorem State.takeFault_params (s : State) (f : BlockFault) (c : Command) : (s.takeFault f c).params = s.params := by
  unfold State.takeFault; split <;> rfl
@[simp] theorem State.takeFault_bus (s : State) (f : BlockFault) (c : Command) : (s.takeFault f c).bus = s.bus := by
  unfold State.takeFault; split <;> rfl
@[simp] theorem State.takeFault_response (s : State) (f : BlockFault) (c : Command) :
    (s.takeFault f c).response = none := by
  unfold State.takeFault; split <;> rfl
@[simp] theorem State.takeFault_phase (s : State) (f : BlockFault) (c : Command) : (s.takeFault f c).phase = s.phase := by
  unfold State.takeFault; split <;> rfl

theorem faultCode_ne_zero (f : BlockFault) : faultCode f ≠ 0 := by cases f <;> decide

theorem State.takeFault_fault_ne_zero (s : State) (f : BlockFault) (c : Command) : (s.takeFault f c).fault ≠ 0 := by
  by_cases h : s.fault = 0
  · rw [s.takeFault_live f c h]; exact faultCode_ne_zero f
  · rw [s.takeFault_faulted f c h]; exact h

/-! ## The gate and the operand checks -/

theorem whenLive_live (s : State) (k : Result) (h : s.fault = 0) : whenLive s k = k := if_pos h

theorem whenLive_faulted (s : State) (k : Result) (h : s.fault ≠ 0) : whenLive s k = .next s.refuse :=
  if_neg h

theorem withLine_ok (c : Command) (idx : Byte) (s : State) (k : Fin 64 → Result) (h : idx.toNat < 64) :
    withLine c idx s k = k ⟨idx.toNat, h⟩ := by simp [withLine, h]

theorem withLine_trap (c : Command) (idx : Byte) (s : State) (k : Fin 64 → Result) (h : ¬ idx.toNat < 64) :
    withLine c idx s k = .next (s.takeFault .indexOutOfRange c) := by simp [withLine, h]

theorem withChannel_ok (c : Command) (idx : Byte) (s : State) (k : Fin 2 → Result) (h : idx.toNat < 2) :
    withChannel c idx s k = k ⟨idx.toNat, h⟩ := by simp [withChannel, h]

theorem withChannel_trap (c : Command) (idx : Byte) (s : State) (k : Fin 2 → Result) (h : ¬ idx.toNat < 2) :
    withChannel c idx s k = .next (s.takeFault .indexOutOfRange c) := by simp [withChannel, h]

theorem withValue_ok (c : Command) (max : Nat) (v : Word32) (s : State) (k : Result) (h : v.toNat ≤ max) :
    withValue c max v s k = k := by simp [withValue, h]

theorem withValue_trap (c : Command) (max : Nat) (v : Word32) (s : State) (k : Result) (h : ¬ v.toNat ≤ max) :
    withValue c max v s k = .next (s.takeFault .valueOutOfRange c) := by simp [withValue, h]

/-- The gate answers a next state in one of two ways. -/
theorem whenLive_cases {s t : State} {k : Result} (h : whenLive s k = .next t) :
    (s.fault ≠ 0 ∧ t = s.refuse) ∨ (s.fault = 0 ∧ k = .next t) := by
  by_cases h0 : s.fault = 0
  · exact .inr ⟨h0, by rwa [whenLive_live s k h0] at h⟩
  · rw [whenLive_faulted s k h0] at h
    exact .inl ⟨h0, by cases h; rfl⟩

/-- A line operand is a line or faults. -/
theorem withLine_cases {c : Command} {idx : Byte} {s t : State} {k : Fin 64 → Result}
    (h : withLine c idx s k = .next t) :
    (∃ l : Fin 64, l.val = idx.toNat ∧ k l = .next t) ∨ (63 < idx.toNat ∧ t = s.takeFault .indexOutOfRange c) := by
  by_cases hl : idx.toNat < 64
  · exact .inl ⟨⟨idx.toNat, hl⟩, rfl, by simpa [withLine, hl] using h⟩
  · exact .inr ⟨by omega, by simpa [withLine, hl] using h.symm⟩

/-- A channel operand is a channel or faults. -/
theorem withChannel_cases {c : Command} {idx : Byte} {s t : State} {k : Fin 2 → Result}
    (h : withChannel c idx s k = .next t) :
    (∃ ch : Fin 2, ch.val = idx.toNat ∧ k ch = .next t) ∨ (1 < idx.toNat ∧ t = s.takeFault .indexOutOfRange c) := by
  by_cases hl : idx.toNat < 2
  · exact .inl ⟨⟨idx.toNat, hl⟩, rfl, by simpa [withChannel, hl] using h⟩
  · exact .inr ⟨by omega, by simpa [withChannel, hl] using h.symm⟩

/-- A value operand fits or faults. -/
theorem withValue_cases {c : Command} {max : Nat} {v : Word32} {s t : State} {k : Result}
    (h : withValue c max v s k = .next t) :
    (v.toNat ≤ max ∧ k = .next t) ∨ (max < v.toNat ∧ t = s.takeFault .valueOutOfRange c) := by
  by_cases hv : v.toNat ≤ max
  · exact .inl ⟨hv, by simpa [withValue, hv] using h⟩
  · exact .inr ⟨by omega, by simpa [withValue, hv] using h.symm⟩

/-! ## The register file's operations -/

/-- Everything a GPIO write can do. -/
theorem setGpioOp_cases {c : Command} {idx : Byte} {v : Word32} {s t : State} (h : setGpioOp c idx v s = .next t) :
    t = s.refuse ∨ (∃ f, t = s.takeFault f c)
      ∨ (∃ l : Fin 64, l.val = idx.toNat ∧ v.toNat ≤ 1
          ∧ t = (s.writeGpio l (v.extractLsb' 0 1)).respond c.port .ack) := by
  obtain ⟨-, rfl⟩ | ⟨-, h⟩ := whenLive_cases h
  · exact .inl rfl
  obtain ⟨l, hl, h⟩ | ⟨-, rfl⟩ := withLine_cases h
  · obtain ⟨hv, h⟩ | ⟨-, rfl⟩ := withValue_cases h
    · exact .inr (.inr ⟨l, hl, hv, by simpa using h.symm⟩)
    · exact .inr (.inl ⟨_, rfl⟩)
  · exact .inr (.inl ⟨_, rfl⟩)

/-- Everything a GPIO read can do. -/
theorem getGpioOp_cases {c : Command} {idx : Byte} {s t : State} (h : getGpioOp c idx s = .next t) :
    t = s.refuse ∨ (∃ f, t = s.takeFault f c)
      ∨ (∃ l : Fin 64, l.val = idx.toNat ∧ t = s.respond c.port (.value32 ((s.readGpio l).setWidth 32))) := by
  obtain ⟨-, rfl⟩ | ⟨-, h⟩ := whenLive_cases h
  · exact .inl rfl
  obtain ⟨l, hl, h⟩ | ⟨-, rfl⟩ := withLine_cases h
  · exact .inr (.inr ⟨l, hl, by simpa using h.symm⟩)
  · exact .inr (.inl ⟨_, rfl⟩)

/-- Everything an ADC write can do. -/
theorem setAdcOp_cases {c : Command} {idx : Byte} {v : Word32} {s t : State} (h : setAdcOp c idx v s = .next t) :
    t = s.refuse ∨ (∃ f, t = s.takeFault f c)
      ∨ (∃ ch : Fin 2, ch.val = idx.toNat ∧ v.toNat ≤ 4095
          ∧ t = (s.writeAdc ch (v.extractLsb' 0 12)).respond c.port .ack) := by
  obtain ⟨-, rfl⟩ | ⟨-, h⟩ := whenLive_cases h
  · exact .inl rfl
  obtain ⟨l, hl, h⟩ | ⟨-, rfl⟩ := withChannel_cases h
  · obtain ⟨hv, h⟩ | ⟨-, rfl⟩ := withValue_cases h
    · exact .inr (.inr ⟨l, hl, hv, by simpa using h.symm⟩)
    · exact .inr (.inl ⟨_, rfl⟩)
  · exact .inr (.inl ⟨_, rfl⟩)

/-- Everything an ADC read can do. -/
theorem getAdcOp_cases {c : Command} {idx : Byte} {s t : State} (h : getAdcOp c idx s = .next t) :
    t = s.refuse ∨ (∃ f, t = s.takeFault f c)
      ∨ (∃ ch : Fin 2, ch.val = idx.toNat ∧ t = s.respond c.port (.value32 ((s.readAdc ch).setWidth 32))) := by
  obtain ⟨-, rfl⟩ | ⟨-, h⟩ := whenLive_cases h
  · exact .inl rfl
  obtain ⟨l, hl, h⟩ | ⟨-, rfl⟩ := withChannel_cases h
  · exact .inr (.inr ⟨l, hl, by simpa using h.symm⟩)
  · exact .inr (.inl ⟨_, rfl⟩)

/-- Everything a DAC write can do. -/
theorem setDacOp_cases {c : Command} {idx : Byte} {v : Word32} {s t : State} (h : setDacOp c idx v s = .next t) :
    t = s.refuse ∨ (∃ f, t = s.takeFault f c)
      ∨ (∃ ch : Fin 2, ch.val = idx.toNat ∧ v.toNat ≤ 65535
          ∧ t = (s.writeDac ch (v.extractLsb' 0 16)).respond c.port .ack) := by
  obtain ⟨-, rfl⟩ | ⟨-, h⟩ := whenLive_cases h
  · exact .inl rfl
  obtain ⟨l, hl, h⟩ | ⟨-, rfl⟩ := withChannel_cases h
  · obtain ⟨hv, h⟩ | ⟨-, rfl⟩ := withValue_cases h
    · exact .inr (.inr ⟨l, hl, hv, by simpa using h.symm⟩)
    · exact .inr (.inl ⟨_, rfl⟩)
  · exact .inr (.inl ⟨_, rfl⟩)

/-- Everything a DAC read can do. -/
theorem getDacOp_cases {c : Command} {idx : Byte} {s t : State} (h : getDacOp c idx s = .next t) :
    t = s.refuse ∨ (∃ f, t = s.takeFault f c)
      ∨ (∃ ch : Fin 2, ch.val = idx.toNat ∧ t = s.respond c.port (.value32 ((s.readDac ch).setWidth 32))) := by
  obtain ⟨-, rfl⟩ | ⟨-, h⟩ := whenLive_cases h
  · exact .inl rfl
  obtain ⟨l, hl, h⟩ | ⟨-, rfl⟩ := withChannel_cases h
  · exact .inr (.inr ⟨l, hl, by simpa using h.symm⟩)
  · exact .inr (.inl ⟨_, rfl⟩)

/-! ## Timer, dispatcher, reader -/

/-- Everything ADVANCE can do. -/
theorem execAdvance_cases {e : Word32} {s t : State} (h : execAdvance e s = .next t) :
    t = s.refuse ∨ t = s.takeFault .nonFiniteElapsed (Opcode.advance.command 0 e)
      ∨ t = (s.writeTime (advancedTime s.params.timerScale s.time e)).respond .host .ack := by
  obtain ⟨-, rfl⟩ | ⟨-, h⟩ := whenLive_cases h
  · exact .inl rfl
  split at h
  · exact .inr (.inl (by simpa using h.symm))
  · exact .inr (.inr (by simpa using h.symm))

/-- Everything a check of a watched line can do (R161). -/
theorem checkLine_cases (s : State) (l : Fin 64) :
    (s.readLine l = .unseeded ∧ s.checkLine l = (s.writeLine l (.seen (s.readGpio l))).respond .host (.value32 0))
      ∨ (∃ prev, s.readLine l = .seen prev ∧ s.readGpio l ≠ prev
          ∧ s.checkLine l = ((s.writeLine l (.seen (s.readGpio l))).emitIrq (s.irqOf l)).respond .host (.value32 1))
      ∨ (s.readLine l = .seen (s.readGpio l) ∧ s.checkLine l = s.respond .host (.value32 0)) := by
  unfold State.checkLine
  cases hl : s.readLine l with
  | unseeded => exact .inl ⟨rfl, rfl⟩
  | seen prev =>
    by_cases hp : s.readGpio l = prev
    · exact .inr (.inr ⟨by rw [hp], by simp [hp]⟩)
    · exact .inr (.inl ⟨prev, rfl, hp, by simp [hp]⟩)

/-- Everything CHECK_EDGE can do. -/
theorem execCheckEdge_cases {idx : Byte} {s t : State} (h : execCheckEdge idx s = .next t) :
    t = s.refuse ∨ (∃ f, t = s.takeFault f (Opcode.checkEdge.command idx 0))
      ∨ (∃ l : Fin 64, l.val = idx.toNat ∧ s.watched l = true ∧ t = s.checkLine l) := by
  obtain ⟨-, rfl⟩ | ⟨-, h⟩ := whenLive_cases h
  · exact .inl rfl
  obtain ⟨l, hl, h⟩ | ⟨-, rfl⟩ := withLine_cases h
  · split at h
    · exact .inr (.inr ⟨l, hl, ‹_›, by simpa using h.symm⟩)
    · exact .inr (.inl ⟨_, by simpa using h.symm⟩)
  · exact .inr (.inl ⟨_, rfl⟩)

/-- Everything FW_PUSH_BYTE can do. -/
theorem execFwPushByte_cases {b : Word32} {s t : State} (h : execFwPushByte b s = .next t) :
    t = s.refuse ∨ (∃ f, t = s.takeFault f (Opcode.fwPushByte.command 0 b))
      ∨ (b.toNat ≤ 255 ∧ s.queueFull = false
          ∧ t = (s.pushQueue (b.extractLsb' 0 8)).respond .firmware .ack) := by
  obtain ⟨-, rfl⟩ | ⟨-, h⟩ := whenLive_cases h
  · exact .inl rfl
  obtain ⟨hb, h⟩ | ⟨-, rfl⟩ := withValue_cases h
  · by_cases hq : s.queueFull = true
    · exact .inr (.inl ⟨_, by simpa [hq] using h.symm⟩)
    · exact .inr (.inr ⟨hb, by simpa using hq, by simpa [hq] using h.symm⟩)
  · exact .inr (.inl ⟨_, rfl⟩)

/-- The reader skips an unrecognised byte (R185). -/
theorem readFrame_skip (t : Byte) (rest : List Byte) (h : t ≠ tagQuad) : readFrame (t :: rest) = readFrame rest := by
  simp [readFrame, h]

/-- The reader returns a whole frame (R182). -/
theorem readFrame_frame (x y : Byte) (body : List Byte) (h : 32 ≤ body.length) :
    readFrame (tagQuad :: x :: y :: body) = (some ⟨x, y, unpackLeds (body.take 32)⟩, body.drop 32) := by
  simp [readFrame, h]

/-- The reader drops a partial frame with all bytes after it (R186). -/
theorem readFrame_partial (rest : List Byte) (h : rest.length < 34) : readFrame (tagQuad :: rest) = (none, []) := by
  match rest, h with
  | [], _ => rfl
  | [_], _ => rfl
  | x :: y :: body, h =>
    have : ¬ 32 ≤ body.length := by simp at h; omega
    simp [readFrame, this]

/-! ## Fetching -/

theorem fetch_empty (s : State) (h : s.bus = []) : fetch s = .host := by simp [fetch, h]

/-- Everything the fetch of a command can give (30_encoding R89). -/
theorem fetch_command (s : State) (c : Command) (rest : List Command) (h : s.bus = c :: rest) :
    (s.fault ≠ 0 ∧ fetch s = .done { s with bus := rest, response := none })
      ∨ (s.fault = 0 ∧ ∃ f, decodeCommand c = .error f ∧ fetch s = .done ({ s with bus := rest }.takeFault f c))
      ∨ (s.fault = 0 ∧ ∃ i, decodeCommand c = .ok i ∧ fetch s = .run i { s with bus := rest }) := by
  by_cases h0 : s.fault = 0
  · cases hd : decodeCommand c with
    | error f => exact .inr (.inl ⟨h0, f, rfl, by simp [fetch, h, h0, hd]⟩)
    | ok i => exact .inr (.inr ⟨h0, i, rfl, by simp [fetch, h, h0, hd]⟩)
  · refine .inl ⟨h0, ?_⟩
    simp only [fetch, h]
    exact if_neg h0

/-- Everything the host's turn can do (45_orchestrator R210, R211). -/
theorem hostTurn_cases {s t : State} (h : hostTurn s = .next t) :
    s.fault = 0 ∧
      ((s.phase = .idle ∧ s.samples = [] ∧ t = s)
      ∨ (∃ d later, s.phase = .idle ∧ s.samples = d :: later ∧ t = s.beginCycle d later)
      ∨ (s.phase = .samplingInputs ∧ t = s.beginDispatch)
      ∨ (s.phase = .dispatchingInterrupts ∧ t = s.beginAdvance)
      ∨ (s.phase = .advancingClock ∧ t = s.beginFirmware)
      ∨ (s.phase = .runningFirmware ∧ t = s.beginOutputs)
      ∨ (s.phase = .samplingOutputs ∧ s.outTodo = [] ∧ t = s.beginDrain)
      ∨ (∃ r rest v, s.phase = .samplingOutputs ∧ s.outTodo = r :: rest ∧ s.response = some (.host, .value32 v)
          ∧ t = { s with outputs := setOutput (outputValue r v) s.outputs }.readOutputs rest)
      ∨ (s.phase = .drainingSerial ∧ s.response = some (.host, .frame none)
          ∧ t = { s.enter .idle with current := Sample.none })
      ∨ (∃ q, s.phase = .drainingSerial ∧ s.response = some (.host, .frame (some q))
          ∧ t = (s.deliver q).present [nextFrameCommand])) := by
  unfold hostTurn at h
  split at h
  · refine ⟨‹_›, ?_⟩
    cases hp : s.phase with
    | idle =>
      cases hs : s.samples with
      | nil => simp only [hp, hs] at h; cases h; simp
      | cons d later => simp only [hp, hs] at h; cases h; simp
    | samplingInputs => simp only [hp] at h; cases h; simp
    | dispatchingInterrupts => simp only [hp] at h; cases h; simp
    | advancingClock => simp only [hp] at h; cases h; simp
    | runningFirmware => simp only [hp] at h; cases h; simp
    | samplingOutputs =>
      simp only [hp, State.continueOutputs] at h
      split at h
      · cases h; simp_all
      · split at h
        · cases h; simp_all
        · cases h
    | drainingSerial =>
      simp only [hp, State.continueDrain] at h
      split at h
      · cases h; simp_all
      · cases h; simp_all
      · cases h
  · cases h

end Sys2Proof.Machine
end

