-- ==== Sys2Proof/Laws/PerInstr.lean ====
section
/-! SUPPORT. The family `TableRow`, one lemma per constructor: the encoding of an instruction matches the match and mask of its row
of spec/opcode_table.json. -/

namespace Sys2Proof.Laws

/-- The match and mask columns of an instruction's row of spec/opcode_table.json, copied. -/
def tableRow : Instr → Word64 × Word64
  | .setGpio _ _ => (0x0100000000000000#64, 0xFF00FFFF00000000#64)
  | .getGpio _ => (0x0200000000000000#64, 0xFF00FFFFFFFFFFFF#64)
  | .setAdc _ _ => (0x0300000000000000#64, 0xFF00FFFF00000000#64)
  | .getAdc _ => (0x0400000000000000#64, 0xFF00FFFFFFFFFFFF#64)
  | .getDac _ => (0x0600000000000000#64, 0xFF00FFFFFFFFFFFF#64)
  | .checkEdge _ => (0x0700000000000000#64, 0xFF00FFFFFFFFFFFF#64)
  | .advance _ => (0x0800000000000000#64, 0xFFFFFFFF00000000#64)
  | .nextFrame => (0x0900000000000000#64, 0xFFFFFFFFFFFFFFFF#64)
  | .fwSetGpio _ _ => (0x1100000000000000#64, 0xFF00FFFF00000000#64)
  | .fwGetGpio _ => (0x1200000000000000#64, 0xFF00FFFFFFFFFFFF#64)
  | .fwGetAdc _ => (0x1400000000000000#64, 0xFF00FFFFFFFFFFFF#64)
  | .fwSetDac _ _ => (0x1500000000000000#64, 0xFF00FFFF00000000#64)
  | .fwGetDac _ => (0x1600000000000000#64, 0xFF00FFFFFFFFFFFF#64)
  | .fwPushByte _ => (0x1700000000000000#64, 0xFFFFFFFF00000000#64)
  | .fwReadTime => (0x1800000000000000#64, 0xFFFFFFFFFFFFFFFF#64)
  | .quadrantUpdate _ _ _ => (0x1A#64, 0xFF#64)
  | .unrecognisedByte _ => (0#64, 0#64)

/-- The first word of an encoding as the table numbers it: the command word, or the first byte of a serial unit. -/
def firstWord : Code → Word64
  | .command c => c.word
  | .serial bytes => (bytes.headD 0).setWidth 64

/-- The encoding of an instruction lies in its table row. -/
def TableRow.Statement (i : Instr) : Prop := firstWord (encode i) &&& (tableRow i).2 = (tableRow i).1

/-- A mask without the bits of IDX and DATA leaves the OP field alone. -/
theorem commandWord_and_both (op idx : Byte) (data : Word32) :
    commandWord op idx data &&& 0xFF00FFFF00000000#64 = commandWord op 0 0 := by
  ext i hi
  rw [BitVec.getElem_and, ← BitVec.getLsbD_eq_getElem, ← BitVec.getLsbD_eq_getElem, ← BitVec.getLsbD_eq_getElem,
    commandWord_getLsbD, commandWord_getLsbD]
  interval_cases i <;> simp

/-- A mask without the bits of IDX leaves OP and DATA. -/
theorem commandWord_and_idx (op idx : Byte) (data : Word32) :
    commandWord op idx data &&& 0xFF00FFFFFFFFFFFF#64 = commandWord op 0 data := by
  ext i hi
  rw [BitVec.getElem_and, ← BitVec.getLsbD_eq_getElem, ← BitVec.getLsbD_eq_getElem, ← BitVec.getLsbD_eq_getElem,
    commandWord_getLsbD, commandWord_getLsbD]
  interval_cases i <;> simp

/-- A mask without the bits of DATA leaves OP and IDX. -/
theorem commandWord_and_data (op idx : Byte) (data : Word32) :
    commandWord op idx data &&& 0xFFFFFFFF00000000#64 = commandWord op idx 0 := by
  ext i hi
  rw [BitVec.getElem_and, ← BitVec.getLsbD_eq_getElem, ← BitVec.getLsbD_eq_getElem, ← BitVec.getLsbD_eq_getElem,
    commandWord_getLsbD, commandWord_getLsbD]
  interval_cases i <;> simp

namespace TableRow

theorem setGpio (line : Byte) (value : Word32) : Statement (.setGpio line value) :=
  (commandWord_and_both _ line value).trans rfl
theorem getGpio (line : Byte) : Statement (.getGpio line) := (commandWord_and_idx _ line 0).trans rfl
theorem setAdc (channel : Byte) (value : Word32) : Statement (.setAdc channel value) :=
  (commandWord_and_both _ channel value).trans rfl
theorem getAdc (channel : Byte) : Statement (.getAdc channel) := (commandWord_and_idx _ channel 0).trans rfl
theorem getDac (channel : Byte) : Statement (.getDac channel) := (commandWord_and_idx _ channel 0).trans rfl
theorem checkEdge (line : Byte) : Statement (.checkEdge line) := (commandWord_and_idx _ line 0).trans rfl
theorem advance (elapsed : Word32) : Statement (.advance elapsed) := (commandWord_and_data _ 0 elapsed).trans rfl
theorem nextFrame : Statement .nextFrame := rfl
theorem fwSetGpio (line : Byte) (value : Word32) : Statement (.fwSetGpio line value) :=
  (commandWord_and_both _ line value).trans rfl
theorem fwGetGpio (line : Byte) : Statement (.fwGetGpio line) := (commandWord_and_idx _ line 0).trans rfl
theorem fwGetAdc (channel : Byte) : Statement (.fwGetAdc channel) := (commandWord_and_idx _ channel 0).trans rfl
theorem fwSetDac (channel : Byte) (value : Word32) : Statement (.fwSetDac channel value) :=
  (commandWord_and_both _ channel value).trans rfl
theorem fwGetDac (channel : Byte) : Statement (.fwGetDac channel) := (commandWord_and_idx _ channel 0).trans rfl
theorem fwPushByte (byte : Word32) : Statement (.fwPushByte byte) := (commandWord_and_data _ 0 byte).trans rfl
theorem fwReadTime : Statement .fwReadTime := rfl
theorem quadrantUpdate (x y : Byte) (payload : List Byte) : Statement (.quadrantUpdate x y payload) := by
  simp [Statement, firstWord, encode, tableRow, tagQuad]
theorem unrecognisedByte (byte : Byte) : Statement (.unrecognisedByte byte) := BitVec.and_zero

end TableRow

end Sys2Proof.Laws
end

