-- ==== Sys2Proof/Tests/Slice0.lean ====
section
/-! SUPPORT. Tests: the checks of WellFormed, words written out from 30_encoding, one-step vectors of 95_test_vectors (each
comment names its vector), and for every obligation with hypotheses a witness that meets them. -/

namespace Sys2Proof.Tests

open Sys2Proof Sys2Proof.Machine

/-! ## Helpers -/

/-- The state after one step with the word alone on the port. -/
def after (s : State) (p : Port) (w : Word64) : Option State :=
  match step { s with bus := [⟨p, w⟩] } with
  | .next t => some t
  | _ => none

/-- The response of a word presented alone. -/
def answer (s : State) (p : Port) (w : Word64) : Option (Option (Port × Response)) := (after s p w).map (·.response)

/-- What a word leaves in the fault registers, with its response. -/
def faultOf (p : Port) (w : Word64) : Option (BitVec 8 × Word64 × Bit × Option (Port × Response)) :=
  (after .reset p w).map fun t => (t.fault, t.faultWord, t.faultPort, t.response)

/-- TIME after a word on the host port. -/
def timeAfter (t : Word64) (w : Word64) : Option Word64 := (after { State.reset with time := t } .host w).map (·.time)

/-- EX with TIMER_SCALE 1. -/
def unitScale : Params := { Params.ex with timerScale := 0x3FF0000000000000#64 }

/-- EX with QUEUE_CAPACITY 35 and 35 bytes in QUEUE. -/
def fullQueue : State :=
  { State.resetWith { Params.ex with queueCapacity := some 35 } with queue := (List.range 35).map (BitVec.ofNat 8) }

/-- A faulted block. -/
def faulted : State := { State.reset with fault := 6, faultWord := 0x080000007F800000#64 }

/-- Line 13 last seen at 0, and now 1. -/
def risen : State := { State.reset with gpio := State.reset.gpio.set 13 1, line := State.reset.line.set 13 (.seen 0) }

/-- The payload `Pk` of 95_test_vectors 2.5. -/
def pk : List Byte :=
  let p : List Byte := [0x01, 0x23, 0x45, 0x67, 0x89, 0xAB, 0xCD, 0xEF]
  p ++ p ++ p ++ p

/-- The frame of X2. -/
def quad23 : Quad := ⟨2, 3, (List.range 64).map (BitVec.ofNat 4)⟩

/-- The answer of NEXT_FRAME and the queue it leaves. -/
def frameOf (q : List Byte) : Option (Option (Port × Response) × List Byte) :=
  (after { State.reset with queue := q } .host 0x0900000000000000#64).map fun t => (t.response, t.queue)

/-! ## WellFormed refuses an ill-formed term of each check -/

theorem test_wellFormed_line : (Instr.setGpio 64 1).wellFormed = false ∧ (Instr.getGpio 64).wellFormed = false
    ∧ (Instr.checkEdge 64).wellFormed = false ∧ (Instr.fwSetGpio 64 0).wellFormed = false
    ∧ (Instr.fwGetGpio 255).wellFormed = false ∧ (Instr.setGpio 63 1).wellFormed = true := by decide

theorem test_wellFormed_channel : (Instr.setAdc 2 0).wellFormed = false ∧ (Instr.getAdc 2).wellFormed = false
    ∧ (Instr.getDac 2).wellFormed = false ∧ (Instr.fwGetAdc 2).wellFormed = false ∧ (Instr.fwSetDac 2 0).wellFormed = false
    ∧ (Instr.fwGetDac 2).wellFormed = false ∧ (Instr.fwGetDac 1).wellFormed = true := by decide

theorem test_wellFormed_value : (Instr.setGpio 0 2).wellFormed = false ∧ (Instr.fwSetGpio 0 2).wellFormed = false
    ∧ (Instr.setAdc 0 4096).wellFormed = false ∧ (Instr.fwSetDac 0 65536).wellFormed = false
    ∧ (Instr.fwPushByte 256).wellFormed = false ∧ (Instr.fwSetDac 0 65535).wellFormed = true := by decide

theorem test_wellFormed_serial : (Instr.quadrantUpdate 0 0 (List.replicate 31 0)).wellFormed = false
    ∧ (Instr.quadrantUpdate 0 0 (List.replicate 33 0)).wellFormed = false
    ∧ (Instr.unrecognisedByte 0x1A).wellFormed = false ∧ (Instr.unrecognisedByte 0x1B).wellFormed = true := by decide

/-! ## Decoding of words written out from 30_encoding R80, R82, R91, R94 -/

theorem test_decode_setGpio : decodeTableWord 64 0x0120000000000001 = some (.setGpio 32 1) := by decide
theorem test_decode_getGpio : decodeTableWord 64 0x0220000000000000 = some (.getGpio 32) := by decide
theorem test_decode_setAdc : decodeTableWord 64 0x0301000000000FFF = some (.setAdc 1 4095) := by decide
theorem test_decode_getAdc : decodeTableWord 64 0x0401000000000000 = some (.getAdc 1) := by decide
theorem test_decode_getDac : decodeTableWord 64 0x0601000000000000 = some (.getDac 1) := by decide
theorem test_decode_checkEdge : decodeTableWord 64 0x070D000000000000 = some (.checkEdge 13) := by decide
theorem test_decode_advance : decodeTableWord 64 0x0800000037AEC33E = some (.advance 0x37AEC33E) := by decide
theorem test_decode_nextFrame : decodeTableWord 64 0x0900000000000000 = some .nextFrame := by decide
theorem test_decode_fwSetGpio : decodeTableWord 64 0x113F000000000001 = some (.fwSetGpio 63 1) := by decide
theorem test_decode_fwGetGpio : decodeTableWord 64 0x1214000000000000 = some (.fwGetGpio 20) := by decide
theorem test_decode_fwGetAdc : decodeTableWord 64 0x1401000000000000 = some (.fwGetAdc 1) := by decide
theorem test_decode_fwSetDac : decodeTableWord 64 0x150100000000FFFF = some (.fwSetDac 1 65535) := by decide
theorem test_decode_fwGetDac : decodeTableWord 64 0x1601000000000000 = some (.fwGetDac 1) := by decide
theorem test_decode_fwPushByte : decodeTableWord 64 0x170000000000001A = some (.fwPushByte 0x1A) := by decide
theorem test_decode_fwReadTime : decodeTableWord 64 0x1800000000000000 = some .fwReadTime := by decide
theorem test_decode_unrecognisedByte : decodeTableWord 8 0x42 = some (.unrecognisedByte 0x42) := by decide

/-- The tag alone, every byte above it zero. -/
theorem test_decode_quadrantTag : decodeTableWord 8 0x1A = some (.quadrantUpdate 0 0 (List.replicate 32 0)) := by decide

/-- The 35 bytes of X2, byte 0 in the least significant bits. -/
theorem test_decode_quadrantUpdate :
    decodeTableWord 280 0xEFCDAB8967452301EFCDAB8967452301EFCDAB8967452301EFCDAB896745230103021A
      = some (.quadrantUpdate 2 3 pk) := by decide +kernel

theorem test_encode_commands : encode (.setGpio 32 1) = .command ⟨.host, 0x0120000000000001#64⟩
    ∧ encode (.getDac 0) = .command ⟨.host, 0x0600000000000000#64⟩
    ∧ encode (.fwSetDac 0 32768) = .command ⟨.firmware, 0x1500000000008000#64⟩
    ∧ encode (.fwReadTime) = .command ⟨.firmware, 0x1800000000000000#64⟩ := by decide

/-! ## Register file: G1 to G10, X4, P1, P5 -/

theorem test_setGpio_63 : (after .reset .host 0x013F000000000001#64).map (fun t => (t.gpio[63], t.gpio[62], t.response))
    = some (1, 0, some (.host, .ack)) := by decide

/-- G9: a watched line's entry and IRQ_OUT stay. -/
theorem test_setGpio_watched : (after .reset .host 0x0120000000000001#64).map (fun t => (t.gpio[32], t.line[32], t.irqOut))
    = some (1, .unseeded, []) := by decide

theorem test_getGpio_reset : answer .reset .host 0x0200000000000000#64 = some (some (.host, .value32 0)) := by decide

theorem test_getGpio_set : answer { State.reset with gpio := State.reset.gpio.set 40 1 } .host 0x0228000000000000#64
    = some (some (.host, .value32 1)) := by decide

theorem test_setAdc_max : (after .reset .host 0x0301000000000FFF#64).map (fun t => (t.adc[0], t.adc[1], t.response))
    = some (0, 0xFFF, some (.host, .ack)) := by decide

theorem test_getAdc_reset : answer .reset .host 0x0400000000000000#64 = some (some (.host, .value32 0)) := by decide

theorem test_getDac_max : answer { State.reset with dac := State.reset.dac.set 1 0xFFFF } .host 0x0601000000000000#64
    = some (some (.host, .value32 0xFFFF)) := by decide

/-- G7: the later write wins, on the other port. -/
theorem test_fwSetGpio_clear : (after { State.reset with gpio := State.reset.gpio.set 20 1 } .firmware
    0x1114000000000000#64).map (fun t => (t.gpio[20], t.response)) = some (0, some (.firmware, .ack)) := by decide

theorem test_fwGetGpio : answer { State.reset with gpio := State.reset.gpio.set 20 1 } .firmware 0x1214000000000000#64
    = some (some (.firmware, .value32 1)) := by decide

theorem test_fwGetAdc : answer { State.reset with adc := State.reset.adc.set 1 0xFFF } .firmware 0x1401000000000000#64
    = some (some (.firmware, .value32 0xFFF)) := by decide

theorem test_fwSetDac : (after .reset .firmware 0x1500000000008000#64).map (fun t => (t.dac[0], t.dac[1], t.response))
    = some (0x8000, 0, some (.firmware, .ack)) := by decide

theorem test_fwGetDac_reset : answer .reset .firmware 0x1600000000000000#64 = some (some (.firmware, .value32 0)) := by decide

/-! ## Timer: T1, T2, T4, T5 to T11, T15 to T17, M5 -/

theorem test_advance_vectors : timeAfter 0 0x0800000037AEC33E#64 = some 0x3F95555551800000#64
    ∧ timeAfter 0x3F95555551800000#64 0x0800000037AEC33E#64 = some 0x3FA5555551800000#64
    ∧ timeAfter 0 0x080000003F000000#64 = some 0x407F400000000000#64
    ∧ timeAfter 0 0x0800000000000001#64 = some 0x373F400000000000#64 := by decide +kernel

theorem test_advance_unchanged : [0xBA83126F#32, 0x7FC00000#32, 0xFF800000#32, 0x80000000#32, 0, 1].map
    (fun e => timeAfter 0x407F400000000000#64 (commandWord 0x08 0 e)) = List.replicate 6 (some 0x407F400000000000#64) := by
  decide +kernel

theorem test_addition_rounds : advancedTime unitScale.timerScale 0x4340000000000000#64 0x3F000000#32 = 0x4340000000000000#64
    ∧ advancedTime unitScale.timerScale 0x4340000000000000#64 0x3F800000#32 = 0x4340000000000000#64
    ∧ advancedTime unitScale.timerScale 0x4340000000000000#64 0x3FC00000#32 = 0x4340000000000001#64 := by decide +kernel

theorem test_fwReadTime : answer { State.reset with time := 0x3F95555551800000#64 } .firmware 0x1800000000000000#64
    = some (some (.firmware, .value64 0x3F95555551800000#64)) := by decide

theorem test_samplePeriod : recip32 0x473B8000#32 = 0x37AEC33E#32 ∧ recip32 0x472C4400#32 = 0x37BE37C6#32 := by
  decide +kernel

/-! ## Interrupt dispatcher: I1 to I5 -/

theorem test_checkEdge_seeds : (after { State.reset with gpio := State.reset.gpio.set 13 1 } .host
    0x070D000000000000#64).map (fun t => (t.line[13], t.irqOut, t.response))
    = some (.seen 1, [], some (.host, .value32 0)) := by decide

theorem test_checkEdge_fires : (after risen .host 0x070D000000000000#64).map (fun t => (t.line[13], t.irqOut, t.response))
    = some (.seen 1, [⟨1⟩], some (.host, .value32 1)) := by decide

theorem test_checkEdge_falls : (after { State.reset with line := State.reset.line.set 13 (.seen 1) } .host
    0x070D000000000000#64).map (fun t => (t.line[13], t.irqOut, t.response))
    = some (.seen 0, [⟨1⟩], some (.host, .value32 1)) := by decide

/-! ## Serial frame reader: S1 to S9, the push and nibble vectors -/

theorem test_nextFrame_frames : frameOf ([0x00, 0xFF, 0x1A, 2, 3] ++ pk) = some (some (.host, .frame (some quad23)), [])
    ∧ frameOf ([0x1A, 2, 3] ++ pk ++ [0x1A, 5]) = some (some (.host, .frame (some quad23)), [0x1A, 5])
    ∧ frameOf ([0x42, 0x1A, 0, 0] ++ List.replicate 32 0)
      = some (some (.host, .frame (some ⟨0, 0, List.replicate 64 0⟩)), [])
    ∧ frameOf ([0x1A, 255, 255] ++ List.replicate 32 0xFF)
      = some (some (.host, .frame (some ⟨255, 255, List.replicate 64 15⟩)), []) := by decide

theorem test_nextFrame_none : frameOf [] = some (some (.host, .frame none), [])
    ∧ frameOf [0x1A, 1, 2, 0x11] = some (some (.host, .frame none), [])
    ∧ frameOf [5, 6] = some (some (.host, .frame none), []) := by decide

theorem test_fwPushByte : (after .reset .firmware 0x170000000000001A#64).map (fun t => (t.queue, t.response))
    = some ([0x1A], some (.firmware, .ack)) := by decide

/-- S10. -/
theorem test_fwPushByte_full : (after fullQueue .firmware 0x1700000000000099#64).map
    (fun t => (t.fault, t.faultWord, t.faultPort, decide (t.queue = fullQueue.queue)))
    = some (7, 0x1700000000000099#64, 1, true) := by decide

theorem test_nibbles : unpackLeds [0x01, 0x23, 0xF0, 0x0F, 0xA5] = [0, 1, 2, 3, 15, 0, 0, 15, 10, 5]
    ∧ packLeds [15, 0, 10, 5] = [0xF0, 0xA5] := by decide

/-- S2, through the unit's own instruction. -/
theorem test_quadrantUpdate : (match exec (.quadrantUpdate 2 3 pk) { State.reset with queue := [0x1A, 2, 3] ++ pk ++ [7] } with
    | .next t => some (t.queue, t.response) | _ => none) = some ([7], some (.host, .frame (some quad23))) := by decide

/-- S3, through the unit's own instruction. -/
theorem test_unrecognisedByte : (match exec (.unrecognisedByte 0xFF) { State.reset with queue := [0xFF, 0x1A, 2, 3] ++ pk } with
    | .next t => some (t.queue, t.response) | _ => none) = some ([], some (.host, .frame (some quad23))) := by decide

/-- A table word is what the next step runs: its serial unit, read by NEXT_FRAME. -/
theorem test_withFetchWord : (match step (State.reset.withFetchWord 8 0x1A) with
    | .next t => some (t.queue, t.response) | _ => none)
      = some ([], some (.host, .frame (some ⟨0, 0, List.replicate 64 0⟩))) := by decide

/-! ## Faults: E1 to E25 -/

theorem test_faults_decoding : ∀ r ∈ [(Port.host, 0x0000000000000000#64, (1 : BitVec 8)), (.host, 0x0500000000000000#64, 1),
    (.firmware, 0x1300000000000000#64, 1), (.host, 0xFFFFFFFFFFFFFFFF#64, 1), (.firmware, 0x0120000000000001#64, 2),
    (.host, 0x1500000000008000#64, 2), (.host, 0x0120000100000001#64, 1), (.host, 0x0220000000000001#64, 1),
    (.host, 0x0801000037AEC33E#64, 1), (.host, 0x0900000000000001#64, 1), (.firmware, 0x170100000000001A#64, 1),
    (.firmware, 0x1601000000000005#64, 1), (.firmware, 0x0540000000000000#64, 1), (.firmware, 0x0140000000000001#64, 2),
    (.host, 0x0140000100000001#64, 1)],
    faultOf r.1 r.2.1 = some (r.2.2, r.2.1, portBit r.1, none) := by decide

theorem test_faults_operands : ∀ r ∈ [(Port.host, 0x0140000000000001#64, (3 : BitVec 8)), (.host, 0x0302000000000000#64, 3),
    (.host, 0x0402000000000000#64, 3), (.host, 0x0105000000000002#64, 4), (.host, 0x0300000000001000#64, 4),
    (.firmware, 0x1700000000000100#64, 4), (.host, 0x0705000000000000#64, 5), (.host, 0x080000007F800000#64, 6),
    (.host, 0x0140000000000002#64, 3), (.host, 0x0740000000000000#64, 3)],
    faultOf r.1 r.2.1 = some (r.2.2, r.2.1, portBit r.1, none) := by decide

/-- The refusal after E20. -/
theorem test_refused : (after faulted .firmware 0x1800000000000000#64).map (fun t => (t.fault, t.faultWord, t.response))
    = some (6, 0x080000007F800000#64, none) := by decide

/-! ## Host mappings: M1 to M4 -/

theorem test_adcOf : [0, 0x38D1B717#32, 0x3900F990#32, 0x39000000#32, 0x3DCCCCCD#32, 0x3E800000#32, 0x3EAAAAAB#32,
    0x3F000000#32, 0x3F001001#32, 0x3F7FF972#32, 0x3F800000#32, 0x3FC00000#32, 0xBE4CCCCD#32, 0x7F800000#32, 0xFF800000#32,
    0x7FC00000#32].map adcOf = [0, 0, 1, 0, 410, 1024, 1365, 2048, 2048, 4095, 4095, 4095, 0, 4095, 0, 0] := by decide +kernel

theorem test_jacks : [0, 0x80000000#32, 0x3F800000#32, 0x3F000000#32, 0x7FC00000#32].map buttonOf = [0, 0, 1, 1, 1]
    ∧ [0x40A00000#32, 0x3A83126F#32, 0, 0x80000000#32, 0xC0A00000#32, 0x7FC00000#32].map (fun v => levelOf ⟨v, true⟩)
      = [1, 1, 0, 0, 0, 0] ∧ levelOf ⟨0x40A00000#32, false⟩ = 0 ∧ detectOf ⟨0, true⟩ = 1 ∧ detectOf ⟨0, false⟩ = 0 := by
  decide

/-- 8.0 V is 524288 units of 1/65536 V, 0.625 V is 40960, 5.0 V is 327680; the indicator 0.5 is 32768. -/
theorem test_outputs : gateVolts 0 = ⟨0⟩ ∧ gateVolts 1 = ⟨524288⟩ ∧ cvVolts 4096 = ⟨40960⟩ ∧ cvVolts 32768 = ⟨327680⟩
    ∧ cvLight 32768 = ⟨32768⟩ := by decide

/-- 95_test_vectors section 0: the words of one cycle. -/
theorem test_cycle_words : Params.ex.inputMap.map (inputCommand fun _ => ⟨0, true⟩)
      = [⟨.host, 0x0300000000000000#64⟩, ⟨.host, 0x010D000000000000#64⟩, ⟨.host, 0x0120000000000000#64⟩]
    ∧ dispatchCommands Params.ex = [⟨.host, 0x070D000000000000#64⟩, ⟨.host, 0x0720000000000000#64⟩]
    ∧ Params.ex.outputMap.map outputCommand = [⟨.host, 0x0228000000000000#64⟩, ⟨.host, 0x0600000000000000#64⟩] := by
  decide +kernel

theorem test_assembly : assembly (.setGpio 32 1) = "set_gpio 32, 1" ∧ assembly (.advance 0x37AEC33E) = "advance 0x37AEC33E"
    ∧ assembly .fwReadTime = "fw.read_time" := by decide +kernel

/-! ## Witnesses: concrete states and operands that meet the hypotheses of each obligation, every clause of it -/

/-- EX with one command presented. -/
def presented (p : Port) (w : Word64) : State := { State.reset with bus := [⟨p, w⟩] }

/-- EX in a phase with these commands presented. -/
def inPhase (p : Phase) (bus : List Command) : State := { State.reset with phase := p, bus := bus }

/-- The next state, or the state itself where there is none. -/
def stepped (s : State) : State := match step s with | .next t => t | _ => s

theorem witness_ResetPutsEveryElementAtItsTabledValue :
    (State.resetWith Params.ex).watched 13 = true ∧ (State.resetWith Params.ex).watched 32 = true := by decide

theorem witness_StepRunsTheDecodedCommand :
    (presented .host 0x013F000000000001#64).bus = ⟨.host, 0x013F000000000001#64⟩ :: []
      ∧ (presented .host 0x013F000000000001#64).fault = 0
      ∧ decodeCommand ⟨.host, 0x013F000000000001#64⟩ = .ok (.setGpio 63 1) := by decide

theorem witness_DecodeOfEncodeIsTheInstruction : ∀ i ∈ [Instr.setGpio 63 1, .fwSetGpio 63 1, .getGpio 63, .fwGetGpio 63,
    .checkEdge 63, .setAdc 1 4095, .getAdc 1, .fwGetAdc 1, .fwSetDac 1 65535, .getDac 1, .fwGetDac 1, .fwPushByte 255,
    .advance 0xFFFFFFFF, .nextFrame, .fwReadTime, .quadrantUpdate 255 255 pk, .unrecognisedByte 0x1B],
    i.wellFormed = true := by decide

theorem witness_EncodeOfDecodeIsTheCommand :
    decodeCommand ⟨.firmware, 0x17000000000000FF#64⟩ = .ok (.fwPushByte 255)
      ∧ decodeCommand ⟨.host, 0x07FF000000000000#64⟩ = .ok (.checkEdge 255) := by decide

/-- For the GPIO statements and the check statements too: the last line and both values. -/
theorem witness_GpioWritesStoreTheBitAndAcknowledge :
    State.reset.fault = 0 ∧ (63 : Byte).toNat < 64 ∧ (0 : Word32).toNat ≤ 1 ∧ (1 : Word32).toNat ≤ 1 := by decide

theorem witness_GpioReadsReturnTheBit : State.reset.fault = 0 ∧ (63 : Byte).toNat < 64 := by decide

theorem witness_AdcWriteStoresTheValueAndAcknowledges :
    State.reset.fault = 0 ∧ (1 : Byte).toNat < 2 ∧ (4095 : Word32).toNat ≤ 4095 := by decide

theorem witness_AdcReadsReturnTheValue : State.reset.fault = 0 ∧ (1 : Byte).toNat < 2 := by decide

theorem witness_DacWriteStoresTheValueAndAcknowledges :
    State.reset.fault = 0 ∧ (1 : Byte).toNat < 2 ∧ (65535 : Word32).toNat ≤ 65535 := by decide

theorem witness_DacReadsReturnTheValue : State.reset.fault = 0 ∧ (0 : Byte).toNat < 2 ∧ (1 : Byte).toNat < 2 := by decide

theorem witness_FirstCheckSeedsTheEntry : State.reset.fault = 0 ∧ (32 : Byte).toNat < 64
    ∧ (⟨(32 : Byte).toNat, by decide⟩ : Fin 64) ∈ State.reset.params.watchOrder
    ∧ State.reset.line[(32 : Byte).toNat]'(by decide) = .unseeded := by decide

theorem witness_ChangedLineFiresExactlyOnce : risen.fault = 0 ∧ (13 : Byte).toNat < 64
    ∧ (⟨(13 : Byte).toNat, by decide⟩ : Fin 64) ∈ risen.params.watchOrder
    ∧ risen.line[(13 : Byte).toNat]'(by decide) = .seen 0 ∧ risen.gpio[(13 : Byte).toNat]'(by decide) ≠ 0 := by decide

/-- Line 13 last seen at its value 0. -/
def settled : State := { State.reset with line := State.reset.line.set 13 (.seen 0) }

theorem witness_UnchangedLineDoesNotFire : settled.fault = 0 ∧ (13 : Byte).toNat < 64
    ∧ (⟨(13 : Byte).toNat, by decide⟩ : Fin 64) ∈ settled.params.watchOrder
    ∧ settled.line[(13 : Byte).toNat]'(by decide) = .seen (settled.gpio[(13 : Byte).toNat]'(by decide)) := by decide

theorem witness_AdvanceAddsTheScaledElapsedTime :
    State.reset.fault = 0 ∧ 0x7F7FFFFF#32 ≠ 0x7F800000#32 ∧ 0xFF800000#32 ≠ 0x7F800000#32 := by decide

theorem witness_ReadTimeReturnsTheCounterBits : State.reset.fault = 0 := by decide

theorem witness_PushByteAppendsAtTheTail : State.reset.fault = 0 ∧ (255 : Word32).toNat ≤ 255
    ∧ State.reset.params.queueCapacity ≠ some State.reset.queue.length := by decide

theorem witness_NextFrameReturnsTheFirstWholeFrame :
    (∀ b ∈ ([0x00, 0xFF] : List Byte), b ≠ 0x1A#8) ∧ pk.length = 32
      ∧ { State.reset with queue := [0x00, 0xFF, 0x1A, 2, 3] ++ pk ++ [0x1A, 5] }.fault = 0
      ∧ { State.reset with queue := [0x00, 0xFF, 0x1A, 2, 3] ++ pk ++ [0x1A, 5] }.queue
        = [0x00, 0xFF] ++ 0x1A#8 :: 2 :: 3 :: (pk ++ [0x1A, 5]) := by decide

/-- The longest partial frame, 34 bytes, and the empty tail. -/
theorem witness_NextFrameDropsJunkAndPartialFrames :
    (∀ b ∈ ([0x42] : List Byte), b ≠ 0x1A#8) ∧ (0x1A#8 :: List.replicate 33 (0 : Byte) = [] ∨
        ∃ r, 0x1A#8 :: List.replicate 33 (0 : Byte) = 0x1A#8 :: r ∧ r.length < 34)
      ∧ (([] : List Byte) = [] ∨ ∃ r, ([] : List Byte) = 0x1A#8 :: r ∧ r.length < 34)
      ∧ { State.reset with queue := [0x42] ++ 0x1A#8 :: List.replicate 33 0 }.fault = 0 :=
  ⟨by decide, .inr ⟨_, rfl, by decide⟩, .inl rfl, by decide⟩

/-- The live states of the two witnesses before: each of the two results occurs. -/
theorem witness_NextFrameAnswersOnEveryQueue :
    { State.reset with queue := [0x00, 0xFF, 0x1A, 2, 3] ++ pk ++ [0x1A, 5] }.fault = 0
      ∧ frameOf ([0x00, 0xFF, 0x1A, 2, 3] ++ pk ++ [0x1A, 5]) = some (some (.host, .frame (some quad23)), [0x1A, 5])
      ∧ frameOf ([0x42] ++ 0x1A#8 :: List.replicate 33 0) = some (some (.host, .frame none), []) := by decide

theorem witness_NextFrameTouchesOnlyTheQueue : State.reset.fault = 0 ∧ State.reset.queue = [] := by decide

theorem witness_SerialUnitsAreTheReadersArms :
    decodeUnit { State.reset with queue := [0xFF, 0x1A] }.queue = .unit (.unrecognisedByte 0xFF) [0x1A]
      ∧ decodeUnit { State.reset with queue := [0x1A, 2, 3] ++ pk ++ [7] }.queue = .unit (.quadrantUpdate 2 3 pk) [7] := by
  decide

theorem witness_QuadrantUnitIsPoppedAndReturned :
    { State.reset with queue := [0x1A, 2, 3] ++ pk ++ [7] }.fault = 0 ∧ pk.length = 32
      ∧ { State.reset with queue := [0x1A, 2, 3] ++ pk ++ [7] }.queue = 0x1A#8 :: 2 :: 3 :: (pk ++ [7]) := by decide

theorem witness_UnrecognisedUnitIsDroppedAlone : State.reset.fault = 0 ∧ 0x1B#8 ≠ 0x1A#8
    ∧ { State.reset with queue := [0x1B, 0x1A] }.queue = 0x1B#8 :: [0x1A] := by decide

theorem witness_IndexAboveTheRangeFaults :
    State.reset.fault = 0 ∧ 63 < (64 : Byte).toNat ∧ 1 < (2 : Byte).toNat := by decide

theorem witness_ValueAboveTheRangeFaults : State.reset.fault = 0 ∧ (63 : Byte).toNat ≤ 63 ∧ (1 : Byte).toNat ≤ 1
    ∧ 1 < (2 : Word32).toNat ∧ 4095 < (4096 : Word32).toNat ∧ 65535 < (65536 : Word32).toNat
    ∧ 255 < (256 : Word32).toNat := by decide

theorem witness_CheckOfAnUnwatchedLineFaults : State.reset.fault = 0 ∧ (63 : Byte).toNat < 64
    ∧ (⟨(63 : Byte).toNat, by decide⟩ : Fin 64) ∉ State.reset.params.watchOrder := by decide

theorem witness_AdvanceOfInfinityFaults : State.reset.fault = 0 := by decide

theorem witness_PushOnAFullQueueFaults : fullQueue.fault = 0 ∧ (255 : Word32).toNat ≤ 255
    ∧ fullQueue.params.queueCapacity = some fullQueue.queue.length ∧ State.reset.fault = 0
    ∧ State.reset.params.queueCapacity = none := by decide

theorem witness_OpcodeOnTheOtherPortFaults :
    (presented .firmware 0x0900000000000000#64).bus = ⟨.firmware, 0x0900000000000000#64⟩ :: []
      ∧ (presented .firmware 0x0900000000000000#64).fault = 0
      ∧ opNumber ⟨.firmware, 0x0900000000000000#64⟩ ∈ [0x01, 0x02, 0x03, 0x04, 0x06, 0x07, 0x08, 0x09]
      ∧ (presented .host 0x1100000000000000#64).bus = ⟨.host, 0x1100000000000000#64⟩ :: []
      ∧ (presented .host 0x1100000000000000#64).fault = 0
      ∧ opNumber ⟨.host, 0x1100000000000000#64⟩ ∈ [0x11, 0x12, 0x14, 0x15, 0x16, 0x17, 0x18] := by decide

/-- An undefined opcode at each end of its ranges. -/
theorem witness_UndefinedOrReservedEncodingFaults :
    [0x00FFFFFFFFFFFFFF#64, 0x0500000000000000#64, 0x0A00000000000000#64, 0x1000000000000000#64, 0x1300000000000000#64,
      0x1900000000000000#64, 0xFF00000000000000#64].map (fun w => opNumber ⟨.host, w⟩)
        = [0x00, 0x05, 0x0A, 0x10, 0x13, 0x19, 0xFF]
      ∧ (presented .host 0x0A00000000000000#64).fault = 0 := by decide +kernel

/-- A reserved field of each kind at 1, on the opcode's own port. -/
theorem witness_UndefinedOrReservedEncodingFaults_reserved :
    (opNumber ⟨.host, 0x0100000100000000#64⟩ = 0x01 ∧ (0x0100000100000000#64).toNat / 2 ^ 32 % 65536 = 1)
      ∧ (opNumber ⟨.firmware, 0x1701000000000000#64⟩ = 0x17 ∧ (0x1701000000000000#64).toNat / 2 ^ 48 % 256 = 1)
      ∧ (opNumber ⟨.host, 0x0200000000000001#64⟩ = 0x02 ∧ (0x0200000000000001#64).toNat % 2 ^ 32 = 1) := by decide +kernel

theorem witness_StepTakesTheFirstFaultOfTheCheckList :
    ({ faulted with bus := [⟨.host, 0#64⟩] }.bus = ⟨.host, 0#64⟩ :: [] ∧ faulted.fault ≠ 0)
      ∧ (presented .host 0x0140000000000002#64).fault = 0
      ∧ commandFault (presented .host 0x0140000000000002#64) ⟨.host, 0x0140000000000002#64⟩ = some .indexOutOfRange
      ∧ commandFault (presented .host 0x013F000000000001#64) ⟨.host, 0x013F000000000001#64⟩ = none := by decide

theorem witness_FaultedBlockStaysFrozen : { faulted with bus := [⟨.host, 0#64⟩] }.fault ≠ 0
    ∧ ∃ t, steps 1 { faulted with bus := [⟨.host, 0#64⟩] } = .next t :=
  ⟨by decide, _, rfl⟩

theorem witness_EveryStepKeepsTheInvariant : Invariant (presented .host 0x070D000000000000#64)
    ∧ step (presented .host 0x070D000000000000#64) = .next (stepped (presented .host 0x070D000000000000#64)) :=
  ⟨⟨by decide, fun l _ => by simp [presented, State.reset, State.resetWith, State.readLine],
      Nat.zero_le _, fun n _ => by simp [presented, State.reset, State.resetWith], .inl ⟨rfl, rfl, rfl⟩,
      fun e h => by simp [presented, State.reset, State.resetWith] at h⟩, rfl⟩

theorem witness_ConstructionMeetsTheInvariant : legalParams Params.ex = true ∧ legalParams fullQueue.params = true := by decide

theorem witness_NoStepChangesTheParameters :
    step (presented .host 0x0301000000000FFF#64) = .next (stepped (presented .host 0x0301000000000FFF#64)) := rfl

/-- For each element a step that changes it. -/
theorem witness_EachElementHasItsOnlyWriters :
    (after .reset .firmware 0x113F000000000001#64).map (fun t => decide (t.gpio ≠ State.reset.gpio)) = some true
      ∧ (after .reset .host 0x0301000000000FFF#64).map (fun t => decide (t.adc ≠ State.reset.adc)) = some true
      ∧ (after .reset .firmware 0x150100000000FFFF#64).map (fun t => decide (t.dac ≠ State.reset.dac)) = some true
      ∧ (after .reset .host 0x070D000000000000#64).map (fun t => decide (t.line ≠ State.reset.line)) = some true
      ∧ (after risen .host 0x070D000000000000#64).map (fun t => decide (t.irqOut ≠ risen.irqOut)) = some true
      ∧ (after .reset .host 0x080000003F000000#64).map (fun t => decide (t.time ≠ State.reset.time)) = some true
      ∧ (after .reset .firmware 0x170000000000001A#64).map (fun t => decide (t.queue ≠ State.reset.queue)) = some true := by
  decide +kernel

theorem witness_PortsConfineWhatACommandWrites :
    (presented .host 0x0301000000000FFF#64).bus = ⟨.host, 0x0301000000000FFF#64⟩ :: []
      ∧ step (presented .host 0x0301000000000FFF#64) = .next (stepped (presented .host 0x0301000000000FFF#64))
      ∧ (presented .firmware 0x1700000000000001#64).bus = ⟨.firmware, 0x1700000000000001#64⟩ :: []
      ∧ step (presented .firmware 0x1700000000000001#64) = .next (stepped (presented .firmware 0x1700000000000001#64)) :=
  ⟨rfl, rfl, rfl, rfl⟩

theorem witness_EventsComeOnlyFromTriggeredChecks :
    step { risen with bus := [⟨.host, 0x070D000000000000#64⟩] }
      = .next (stepped { risen with bus := [⟨.host, 0x070D000000000000#64⟩] }) := rfl

theorem witness_SecondCheckFiresNothing : risen.fault = 0
    ∧ exec (.checkEdge 13) risen = .next (stepped { risen with bus := [⟨.host, 0x070D000000000000#64⟩] })
    ∧ (stepped { risen with bus := [⟨.host, 0x070D000000000000#64⟩] }).fault = 0 := ⟨rfl, rfl, rfl⟩

/-- A seeded and an unseeded entry, both values, at the last line that EX watches. -/
theorem witness_CheckSeesOnlyTheLatestWrite : settled.fault = 0 ∧ State.reset.fault = 0 ∧ (1 : Word32).toNat ≤ 1
    ∧ (0 : Word32).toNat ≤ 1 ∧ (⟨(13 : Byte).toNat, by decide⟩ : Fin 64) ∈ settled.params.watchOrder
    ∧ settled.line[(13 : Byte).toNat]'(by decide) = .seen 0
    ∧ (⟨(32 : Byte).toNat, by decide⟩ : Fin 64) ∈ State.reset.params.watchOrder
    ∧ State.reset.line[(32 : Byte).toNat]'(by decide) = .unseeded := by decide

theorem witness_DispatchEmitsChangedLinesInWatchOrder :
    { risen with bus := dispatchCommands risen.params }.fault = 0 ∧ risen.params.watchOrder.Nodup
      ∧ { risen with bus := dispatchCommands risen.params }.bus = dispatchCommands risen.params ++ [] := by decide +kernel

theorem witness_AdvanceNeverDecreasesTime : State.reset.fault = 0
    ∧ isFinitePositive64 State.reset.params.timerScale = true ∧ State.reset.time.toNat ≤ inf64
    ∧ 0x7F7FFFFF#32 ≠ 0x7F800000#32 := by decide

theorem witness_ClampedAdvanceLeavesNoTrace : State.reset.fault = 0
    ∧ isFinitePositive64 State.reset.params.timerScale = true ∧ State.reset.time.toNat ≤ inf64
    ∧ gtZero32 0 = false ∧ gtZero32 0x7FC00000#32 = false ∧ gtZero32 0xFF800000#32 = false := by decide

theorem witness_TimeAtInfinityStaysThere : { State.reset with time := 0x7FF0000000000000#64 }.fault = 0
    ∧ isFinitePositive64 { State.reset with time := 0x7FF0000000000000#64 }.params.timerScale = true
    ∧ { State.reset with time := 0x7FF0000000000000#64 }.time = 0x7FF0000000000000#64 ∧ 1#32 ≠ 0x7F800000#32 := by decide

theorem witness_WideningIsExact : mag32 0x7F7FFFFF#32 < inf32 ∧ mag32 1#32 < inf32 ∧ mag32 0x80000000#32 < inf32 := by decide

/-- The greatest finite magnitude and the least negative one; and one and a half units, a tie, of which the even magnitude 2 is
taken and not the equally near 1. -/
theorem witness_RoundingIsToNearestTiesToEven : mag64 0x7FEFFFFFFFFFFFFF#64 < inf64 ∧ mag64 0x8000000000000001#64 < inf64
    ∧ round64 3 1 = 2 ∧ 1 < inf64
    ∧ |(unitsOf 52 2 * (2 ^ 1 : ℕ) : ℤ) - (3 : ℕ)| = |(unitsOf 52 1 * (2 ^ 1 : ℕ) : ℤ) - (3 : ℕ)| := by decide +kernel

/-- A sample rate of 48000 Hz, and each side of the overflow: 2^-128 is the greatest whose reciprocal is infinity. -/
theorem witness_SamplePeriodIsTheNearestQuotient : gtZero32 0x473B8000#32 = true ∧ mag32 0x473B8000#32 < inf32
    ∧ gtZero32 0x00200000#32 = true ∧ mag32 0x00200000#32 < inf32 ∧ recip32 0x00200000#32 = 0x7F800000#32
    ∧ gtZero32 0x00200001#32 = true ∧ mag32 0x00200001#32 < inf32 ∧ mag32 (recip32 0x00200001#32) < inf32 := by
  decide +kernel

theorem witness_LedsAreTheNibblesHighFirst : 31 < pk.length := by decide

theorem witness_NibblePackingRoundTrips : quad23.leds.length = 64 ∧ pk.length = 32 := by decide

theorem witness_DrainEndsWithinItsBound : { State.reset with queue := [0x1A, 2, 3] ++ pk ++ [0x1A, 5] }.fault = 0 := by decide

theorem witness_PushedQuadrantComesBackWhole :
    { State.reset with bus := pushQuad quad23 ++ [nextFrameCommand] }.fault = 0
      ∧ { State.reset with bus := pushQuad quad23 ++ [nextFrameCommand] }.queue = []
      ∧ (∀ n, { State.reset with bus := pushQuad quad23 ++ [nextFrameCommand] }.params.queueCapacity = some n → 35 ≤ n)
      ∧ quad23.leds.length = 64 :=
  ⟨rfl, rfl, fun _ h => absurd (show none = some _ from h) (by simp), by decide⟩

theorem witness_AdcMappingRoundsTheClampedProduct : mag32 0xBF000000#32 < inf32 ∧ mag32 0x7F7FFFFF#32 < inf32
    ∧ isNan32 0x7FC00000#32 = true ∧ value32 0x00000000#32 ≤ value32 0x00000000#32 :=
  ⟨by decide, by decide, by decide, le_rfl⟩

/-- One state for each kind of INPUT_MAP entry. -/
theorem witness_InputEntryWritesItsMappedValue : ∀ row ∈ [InputRow.knob 0 1, .button 0 32, .jackDetect 0 63, .jackLevel 0 0],
    (inPhase .samplingInputs [inputCommand (fun _ => ⟨0x3F800000#32, true⟩) row]).fault = 0
      ∧ (inPhase .samplingInputs [inputCommand (fun _ => ⟨0x3F800000#32, true⟩) row]).bus
        = inputCommand (fun _ => ⟨0x3F800000#32, true⟩) row :: [] := fun _ _ => ⟨rfl, rfl⟩

/-- One state for each kind of OUTPUT_MAP entry. -/
theorem witness_OutputEntryDrivesItsVolts : ∀ row ∈ [OutputRow.mk (.gpio 63) 0, ⟨.dac 1, 1⟩],
    { inPhase .samplingOutputs [outputCommand row] with outTodo := [row] }.fault = 0
      ∧ { inPhase .samplingOutputs [outputCommand row] with outTodo := [row] }.phase = .samplingOutputs
      ∧ { inPhase .samplingOutputs [outputCommand row] with outTodo := [row] }.outTodo = row :: []
      ∧ { inPhase .samplingOutputs [outputCommand row] with outTodo := [row] }.bus = [outputCommand row] :=
  fun _ _ => ⟨rfl, rfl, rfl, rfl⟩

theorem witness_PhaseMovesOnlyToItsSuccessor :
    step (inPhase .samplingInputs []) = .next (stepped (inPhase .samplingInputs [])) := rfl

theorem witness_HostPresentsNoFaultingCommand : (inPhase .dispatchingInterrupts []).bus = []
    ∧ legalParams (inPhase .dispatchingInterrupts []).params = true
    ∧ recip32 (inPhase .dispatchingInterrupts []).params.sampleRate ≠ 0x7F800000#32
    ∧ (∃ t, step (inPhase .dispatchingInterrupts []) = .next t
      ∧ ⟨.host, commandWord 0x08 0 (recip32 0x473B8000#32)⟩ ∈ t.bus) :=
  ⟨rfl, by decide, by decide +kernel, _, rfl, List.mem_singleton.2 rfl⟩

/-- A frame is to be delivered, with one presence drawn. -/
def delivering (present : Bool) : State :=
  { inPhase .drainingSerial [] with response := some (.host, .frame (some quad23)), current := ⟨[], [], [present]⟩ }

/-- The same with no presence listed. -/
def deliveringUnlisted : State := { delivering true with current := ⟨[], [], []⟩ }

theorem witness_DeliveryFollowsItsOwnDraw : (∀ p : Bool, (delivering p).fault = 0 ∧ (delivering p).phase = .drainingSerial
    ∧ (delivering p).bus = [] ∧ (delivering p).response = some (.host, .frame (some quad23))
    ∧ (delivering p).current.presence = p :: [])
    ∧ deliveringUnlisted.fault = 0 ∧ deliveringUnlisted.phase = .drainingSerial ∧ deliveringUnlisted.bus = []
    ∧ deliveringUnlisted.response = some (.host, .frame (some quad23)) ∧ deliveringUnlisted.current.presence = [] :=
  ⟨fun _ => ⟨rfl, rfl, rfl, rfl, rfl⟩, rfl, rfl, rfl, rfl, rfl⟩

theorem witness_DrainPhaseEndsInIdle :
    (inPhase .drainingSerial [⟨.host, 0x0900000000000000#64⟩]).fault = 0
      ∧ (inPhase .drainingSerial [⟨.host, 0x0900000000000000#64⟩]).phase = .drainingSerial
      ∧ (inPhase .drainingSerial [⟨.host, 0x0900000000000000#64⟩]).bus = [⟨.host, 0x0900000000000000#64⟩] := by decide

/-- One output still to do, its read answered. -/
def readAnswered : State :=
  { inPhase .samplingOutputs [] with outTodo := [⟨.gpio 40, 0⟩], response := some (.host, .value32 1) }

/-- A state for each clause. -/
theorem witness_HostPresentsTheCommandsOfEachPhase :
    ((inPhase .idle []).fault = 0 ∧ (inPhase .idle []).bus = [] ∧ (inPhase .idle []).phase = .idle
      ∧ (inPhase .idle []).samples = [])
    ∧ { inPhase .idle [] with samples := [Sample.none] }.samples = Sample.none :: []
    ∧ (inPhase .samplingInputs []).phase = .samplingInputs
    ∧ (inPhase .dispatchingInterrupts []).phase = .dispatchingInterrupts
    ∧ (inPhase .advancingClock []).phase = .advancingClock
    ∧ (inPhase .runningFirmware []).phase = .runningFirmware
    ∧ (readAnswered.fault = 0 ∧ readAnswered.bus = [] ∧ readAnswered.phase = .samplingOutputs
      ∧ readAnswered.outTodo = ⟨.gpio 40, 0⟩ :: [] ∧ readAnswered.response = some (.host, .value32 1))
    ∧ ((inPhase .samplingOutputs []).phase = .samplingOutputs ∧ (inPhase .samplingOutputs []).outTodo = [])
    ∧ ({ inPhase .drainingSerial [] with response := some (.host, .frame none) }.phase = .drainingSerial
      ∧ { inPhase .drainingSerial [] with response := some (.host, .frame none) }.response = some (.host, .frame none)) :=
  ⟨⟨rfl, rfl, rfl, rfl⟩, rfl, rfl, rfl, rfl, rfl, ⟨rfl, rfl, rfl, rfl, rfl⟩, ⟨rfl, rfl⟩, rfl, rfl⟩

end Sys2Proof.Tests
end

/-! ## Binary64 arithmetic rounds to nearest even (O47)

A rounding gives one of the two magnitudes next to the exact value, and magnitudes are in the order of their values; so a
magnitude that is nearest among the neighbours is nearest among all, and infinity is reached exactly from the midpoint above
the greatest finite magnitude on. -/

namespace Sys2Proof.Machine

/-- The nearer of the two neighbouring magnitudes of `num / den`, the even one on a tie and cut off at infinity, is the
rounding to nearest even. Where infinity's magnitude is even, a tie with the greatest finite one goes to infinity. -/
theorem nearestEven_of_neighbours {f maxMag num den a up : Nat} (hmax : maxMag % 2 = 0)
    (hlo : unitsOf f a * den ≤ num) (hhi : num < unitsOf f (a + 1) * den)
    (hup : (up = 0 ∧ 2 * num < (unitsOf f a + unitsOf f (a + 1)) * den)
      ∨ (up = 1 ∧ (unitsOf f a + unitsOf f (a + 1)) * den < 2 * num)
      ∨ (2 * num = (unitsOf f a + unitsOf f (a + 1)) * den ∧ up ≤ 1 ∧ (a + up) % 2 = 0)) :
    nearestEven f maxMag num den (min (a + up) maxMag) := by
  have hden : 0 < den := Nat.pos_of_ne_zero (by rintro rfl; simp at hhi)
  have value_mono {i j : Nat} (h : i ≤ j) : unitsOf f i * den ≤ unitsOf f j * den :=
    Nat.mul_le_mul_right den ((unitsOf_strictMono f).monotone h)
  have value_strict {i j : Nat} (h : i < j) : unitsOf f i * den < unitsOf f j * den :=
    Nat.mul_lt_mul_of_pos_right (unitsOf_strictMono f h) hden
  rw [Nat.add_mul] at hup
  refine ⟨min_le_right _ _, ?overflow, fun hfinite j _ => ?nearest⟩
  case overflow =>
    rw [Nat.add_mul]
    rcases Nat.lt_trichotomy (a + 1) maxMag with below | rfl | above
    · have := value_mono (show a + 1 ≤ maxMag - 1 by omega)
      have := value_mono (Nat.sub_le maxMag 1)
      omega
    · rw [Nat.add_sub_cancel]
      omega
    · have := value_mono (show maxMag ≤ a by omega)
      have := value_mono (Nat.sub_le maxMag 1)
      omega
  case nearest =>
    have outside : j = a ∨ j = a + 1 ∨ unitsOf f j * den < unitsOf f a * den
        ∨ unitsOf f (a + 1) * den < unitsOf f j * den := by
      rcases Nat.lt_trichotomy j a with below | here | above
      · exact .inr (.inr (.inl (value_strict below)))
      · exact .inl here
      · rcases Nat.eq_or_lt_of_le (show a + 1 ≤ j from above) with next | beyond
        · exact .inr (.inl next.symm)
        · exact .inr (.inr (.inr (value_strict beyond)))
    rw [min_eq_left (by omega), Int.abs_eq_natAbs, Int.abs_eq_natAbs]
    rcases (show up = 0 ∨ up = 1 by omega) with rfl | rfl
    · rw [Nat.add_zero]
      rcases outside with rfl | rfl | below | above <;> omega
    · rcases outside with rfl | rfl | below | above <;> omega

/-- `roundMag` rounds to nearest even in every format with a fraction and an even magnitude of infinity. -/
theorem nearestEven_roundMag (f maxMag n k : Nat) (hf : f ≠ 0) (hmax : maxMag % 2 = 0) :
    nearestEven f maxMag n (2 ^ k) (roundMag (f + 1) maxMag n k) := by
  obtain ⟨a, up, hlo, hhi, hround, hup⟩ := roundMag_cases f maxMag n k
  simp only [hf, false_or] at hup
  rw [hround]
  exact nearestEven_of_neighbours hmax hlo hhi hup

theorem nearestEven_round64 (n k : Nat) : nearestEven 52 inf64 n (2 ^ k) (round64 n k) :=
  nearestEven_roundMag 52 inf64 n k (by decide) (by decide)

theorem round64_le (n k : Nat) : round64 n k ≤ inf64 := roundMag_le 53 inf64 n k

@[simp] theorem round64_zero : round64 0 0 = 0 := by
  simpa [round64, unitsOf] using roundMag_exact 52 inf64 0 0 (Nat.zero_le _)

theorem isNan64_of_finite {x : Word64} (h : mag64 x < inf64) : isNan64 x = false := by
  simpa [isNan64] using h.le

theorem isInf64_of_finite {x : Word64} (h : mag64 x < inf64) : isInf64 x = false := by
  simpa [isInf64] using h.ne

/-- The product of finite operands is the exact product rounded, whatever its sign. -/
theorem fmul64_of_finite {a b : Word64} (ha : mag64 a < inf64) (hb : mag64 b < inf64) :
    fmul64 a b = pack64 (a.msb != b.msb) (round64 (units64 a * units64 b) 1074) := by
  simp [fmul64, isNan64_of_finite, isInf64_of_finite, ha, hb]

/-- The sign of the sum of finite operands (R12): that of the exact sum, and for zero a minus only from two minuses. -/
def sumSign64 (a b : Word64) : Bool :=
  if signedUnits64 a + signedUnits64 b = 0 then a.msb && b.msb else decide (signedUnits64 a + signedUnits64 b < 0)

/-- The sum of finite operands is the exact sum rounded, an exact zero included. -/
theorem fadd64_of_finite {a b : Word64} (ha : mag64 a < inf64) (hb : mag64 b < inf64) :
    fadd64 a b = pack64 (sumSign64 a b) (round64 (signedUnits64 a + signedUnits64 b).natAbs 0) := by
  by_cases hz : signedUnits64 a + signedUnits64 b = 0 <;>
    simp [fadd64, sumSign64, isNan64_of_finite, isInf64_of_finite, ha, hb, hz]

/-- Settles O47: the rounding is `nearestEven_round64`, and a finite product or sum is that rounding packed with its sign. -/
theorem roundingIsToNearestTiesToEven : Obligations.RoundingIsToNearestTiesToEven := by
  refine ⟨nearestEven_round64, fun a b ha hb => ?_⟩
  rw [fmul64_of_finite ha hb, fadd64_of_finite ha hb, mag64_pack64 _ _ (round64_le _ _), mag64_pack64 _ _ (round64_le _ _),
    msb_pack64 _ _ (round64_le _ _), msb_pack64 _ _ (round64_le _ _)]
  exact ⟨nearestEven_round64 _ 1074, rfl, nearestEven_round64 _ 0, rfl⟩

end Sys2Proof.Machine

/-! ## Construction: the tabled reset values (O1) and the invariant (O35) -/

namespace Sys2Proof.Machine

@[simp] theorem State.resetWith_readGpio (P : Params) (l : Fin 64) : (State.resetWith P).readGpio l = 0 :=
  Vector.getElem_replicate l.isLt

@[simp] theorem State.resetWith_readAdc (P : Params) (c : Fin 2) : (State.resetWith P).readAdc c = 0 :=
  Vector.getElem_replicate c.isLt

@[simp] theorem State.resetWith_readDac (P : Params) (c : Fin 2) : (State.resetWith P).readDac c = 0 :=
  Vector.getElem_replicate c.isLt

@[simp] theorem State.resetWith_readLine (P : Params) (l : Fin 64) : (State.resetWith P).readLine l = .unseeded :=
  Vector.getElem_replicate l.isLt

/-- Settles O1: the registers and the line table are replicated values, the rest are the fields of the reset. -/
theorem resetPutsEveryElementAtItsTabledValue : Obligations.ResetPutsEveryElementAtItsTabledValue := fun P =>
  ⟨State.resetWith_readGpio P, State.resetWith_readAdc P, State.resetWith_readDac P,
    fun l _ => State.resetWith_readLine P l, rfl, rfl, rfl, rfl, rfl, rfl, rfl⟩

/-- Construction establishes every clause of the invariant, the parameters being legal. -/
theorem invariant_resetWith {P : Params} (hP : legalParams P = true) : Invariant (State.resetWith P) where
  legal := hP
  line l _ := State.resetWith_readLine P l
  time := Nat.zero_le inf64
  queue n _ := Nat.zero_le n
  latch := .inl ⟨rfl, rfl, rfl⟩
  irqs _ he := absurd he List.not_mem_nil

/-- The example parameters EX meet the constraints of 00_scope R8. -/
theorem legalParams_ex : legalParams Params.ex = true := by decide

/-- Settles O35: `invariant_resetWith`, at EX by `legalParams_ex`. -/
theorem constructionMeetsTheInvariant : Obligations.ConstructionMeetsTheInvariant :=
  ⟨fun _ => invariant_resetWith, invariant_resetWith legalParams_ex⟩

end Sys2Proof.Machine

/-! ## Each element has its only writers (O37)

The elements are taken together as one value, so that what an operation leaves unchanged is one equation. Each opcode is given
the elements it owns (`WritesOnlyOwn`); a step either leaves every element or runs an opcode that writes only its own. -/

namespace Sys2Proof

/-- Every check of the decoder that an accepted command has passed (30_encoding R89). -/
theorem decodeCommand_ok {c : Command} {i : Instr} (h : decodeCommand c = .ok i) :
    ∃ o : Opcode, o.code = opField c.word ∧ o.port = c.port ∧ rsvField c.word = 0
      ∧ (o.idxReserved = true → idxField c.word = 0) ∧ (o.dataReserved = true → dataField c.word = 0)
      ∧ i = o.instr (idxField c.word) (dataField c.word) := by
  unfold decodeCommand at h
  split at h
  · cases h
  next o ho =>
    split_ifs at h with hport hrsv hidx hdata
    cases h
    exact ⟨o, code_of_opcodeOf ho, not_not.1 hport, not_not.1 hrsv, fun hr => not_not.1 fun hne => hidx ⟨hr, hne⟩,
      fun hr => not_not.1 fun hne => hdata ⟨hr, hne⟩, rfl⟩

end Sys2Proof

namespace Sys2Proof.Machine

/-- The OP field holds the number the statements speak of (30_encoding R80). -/
theorem toNat_opField (c : Command) : (opField c.word).toNat = opNumber c := by
  have hw := c.word.isLt
  simp only [opField, opNumber, BitVec.extractLsb'_toNat, Nat.shiftRight_eq_div_pow]
  omega

/-- Everything a step can do: the host's turn, or the first command is refused, faults in decoding, or runs. -/
theorem step_cases {s t : State} (h : step s = .next t) :
    (s.bus = [] ∧ hostTurn s = .next t)
      ∨ ∃ c rest, s.bus = c :: rest ∧
        ((s.fault ≠ 0 ∧ t = { s with bus := rest, response := none })
        ∨ (s.fault = 0 ∧ ∃ f, decodeCommand c = .error f ∧ t = { s with bus := rest }.takeFault f c)
        ∨ (s.fault = 0 ∧ ∃ i, decodeCommand c = .ok i ∧ exec i { s with bus := rest } = .next t)) := by
  unfold step at h
  cases hbus : s.bus with
  | nil =>
    rw [fetch_empty s hbus] at h
    exact .inl ⟨rfl, h⟩
  | cons c rest =>
    refine .inr ⟨c, rest, rfl, ?_⟩
    obtain ⟨hf, hfetch⟩ | ⟨hf, f, hd, hfetch⟩ | ⟨hf, i, hd, hfetch⟩ := fetch_command s c rest hbus <;> rw [hfetch] at h
    · exact .inl ⟨hf, (Host.Outcome.next.inj h).symm⟩
    · exact .inr (.inl ⟨hf, f, hd, (Host.Outcome.next.inj h).symm⟩)
    · exact .inr (.inr ⟨hf, i, hd, h⟩)

/-- The elements of the block that commands write besides the fault registers (10_state R20). -/
structure Elements where
  gpio : Vector Bit 64
  adc : Vector (BitVec 12) 2
  dac : Vector (BitVec 16) 2
  line : Vector LineEntry 64
  irqOut : List Irq
  time : Word64
  queue : List Byte

/-- The elements of a state. -/
def State.elements (s : State) : Elements := ⟨s.gpio, s.adc, s.dac, s.line, s.irqOut, s.time, s.queue⟩

@[simp] theorem State.elements_refuse (s : State) : s.refuse.elements = s.elements := rfl

@[simp] theorem State.elements_respond (s : State) (p : Port) (r : Response) : (s.respond p r).elements = s.elements := rfl

@[simp] theorem State.elements_takeFault (s : State) (f : BlockFault) (c : Command) :
    (s.takeFault f c).elements = s.elements := by
  simp [State.elements]

/-! ### What each operation may write -/

theorem setGpioOp_elements {c : Command} {idx : Byte} {v : Word32} {s t : State} (h : setGpioOp c idx v s = .next t) :
    ∃ g, t.elements = { s.elements with gpio := g } := by
  obtain rfl | ⟨f, rfl⟩ | ⟨l, -, -, rfl⟩ := setGpioOp_cases h
  · exact ⟨s.gpio, rfl⟩
  · exact ⟨s.gpio, s.elements_takeFault f c⟩
  · exact ⟨_, rfl⟩

theorem setAdcOp_elements {c : Command} {idx : Byte} {v : Word32} {s t : State} (h : setAdcOp c idx v s = .next t) :
    ∃ a, t.elements = { s.elements with adc := a } := by
  obtain rfl | ⟨f, rfl⟩ | ⟨ch, -, -, rfl⟩ := setAdcOp_cases h
  · exact ⟨s.adc, rfl⟩
  · exact ⟨s.adc, s.elements_takeFault f c⟩
  · exact ⟨_, rfl⟩

theorem setDacOp_elements {c : Command} {idx : Byte} {v : Word32} {s t : State} (h : setDacOp c idx v s = .next t) :
    ∃ d, t.elements = { s.elements with dac := d } := by
  obtain rfl | ⟨f, rfl⟩ | ⟨ch, -, -, rfl⟩ := setDacOp_cases h
  · exact ⟨s.dac, rfl⟩
  · exact ⟨s.dac, s.elements_takeFault f c⟩
  · exact ⟨_, rfl⟩

theorem getGpioOp_elements {c : Command} {idx : Byte} {s t : State} (h : getGpioOp c idx s = .next t) :
    t.elements = s.elements := by
  obtain rfl | ⟨f, rfl⟩ | ⟨l, -, rfl⟩ := getGpioOp_cases h <;> simp

theorem getAdcOp_elements {c : Command} {idx : Byte} {s t : State} (h : getAdcOp c idx s = .next t) :
    t.elements = s.elements := by
  obtain rfl | ⟨f, rfl⟩ | ⟨ch, -, rfl⟩ := getAdcOp_cases h <;> simp

theorem getDacOp_elements {c : Command} {idx : Byte} {s t : State} (h : getDacOp c idx s = .next t) :
    t.elements = s.elements := by
  obtain rfl | ⟨f, rfl⟩ | ⟨ch, -, rfl⟩ := getDacOp_cases h <;> simp

theorem execCheckEdge_elements {idx : Byte} {s t : State} (h : execCheckEdge idx s = .next t) :
    ∃ line irqs, t.elements = { s.elements with line := line, irqOut := irqs } := by
  obtain rfl | ⟨f, rfl⟩ | ⟨l, -, -, rfl⟩ := execCheckEdge_cases h
  · exact ⟨s.line, s.irqOut, rfl⟩
  · exact ⟨s.line, s.irqOut, s.elements_takeFault f _⟩
  · obtain ⟨-, hl⟩ | ⟨_, -, -, hl⟩ | ⟨-, hl⟩ := checkLine_cases s l <;> rw [hl] <;> exact ⟨_, _, rfl⟩

theorem execAdvance_elements {e : Word32} {s t : State} (h : execAdvance e s = .next t) :
    ∃ time, t.elements = { s.elements with time := time } := by
  obtain rfl | rfl | rfl := execAdvance_cases h
  · exact ⟨s.time, rfl⟩
  · exact ⟨s.time, s.elements_takeFault _ _⟩
  · exact ⟨_, rfl⟩

theorem execFwReadTime_elements {s t : State} (h : execFwReadTime s = .next t) : t.elements = s.elements := by
  obtain ⟨-, rfl⟩ | ⟨-, h⟩ := whenLive_cases h
  · rfl
  · cases h; rfl

theorem execNextFrame_elements {s t : State} (h : execNextFrame s = .next t) :
    ∃ q, t.elements = { s.elements with queue := q } := by
  obtain ⟨-, rfl⟩ | ⟨-, h⟩ := whenLive_cases h
  · exact ⟨s.queue, rfl⟩
  · cases h; exact ⟨_, rfl⟩

theorem execFwPushByte_elements {b : Word32} {s t : State} (h : execFwPushByte b s = .next t) :
    ∃ q, t.elements = { s.elements with queue := q } := by
  obtain rfl | ⟨f, rfl⟩ | ⟨-, -, rfl⟩ := execFwPushByte_cases h
  · exact ⟨s.queue, rfl⟩
  · exact ⟨s.queue, s.elements_takeFault f _⟩
  · exact ⟨_, rfl⟩

/-! ### The owners -/

/-- From the elements `a` to the elements `b` only those changed that the opcode owns. -/
def WritesOnlyOwn (o : Opcode) (a b : Elements) : Prop :=
  match o with
  | .setGpio | .fwSetGpio => ∃ g, b = { a with gpio := g }
  | .setAdc => ∃ v, b = { a with adc := v }
  | .fwSetDac => ∃ v, b = { a with dac := v }
  | .checkEdge => ∃ line irqs, b = { a with line := line, irqOut := irqs }
  | .advance => ∃ time, b = { a with time := time }
  | .nextFrame | .fwPushByte => ∃ q, b = { a with queue := q }
  | .getGpio | .getAdc | .getDac | .fwGetGpio | .fwGetAdc | .fwGetDac | .fwReadTime => b = a

/-- An opcode's meaning writes only the elements the opcode owns. -/
theorem exec_instr_writes {o : Opcode} {idx : Byte} {data : Word32} {s t : State}
    (h : exec (o.instr idx data) s = .next t) : WritesOnlyOwn o s.elements t.elements := by
  cases o with
  | setGpio | fwSetGpio => exact setGpioOp_elements h
  | getGpio | fwGetGpio => exact getGpioOp_elements h
  | setAdc => exact setAdcOp_elements h
  | getAdc | fwGetAdc => exact getAdcOp_elements h
  | fwSetDac => exact setDacOp_elements h
  | getDac | fwGetDac => exact getDacOp_elements h
  | checkEdge => exact execCheckEdge_elements h
  | advance => exact execAdvance_elements h
  | fwReadTime => exact execFwReadTime_elements h
  | nextFrame => exact execNextFrame_elements h
  | fwPushByte => exact execFwPushByte_elements h

/-- The host's turn writes no element of the block: it only presents commands (45_orchestrator R211). -/
theorem hostTurn_elements {s t : State} (h : hostTurn s = .next t) : t.elements = s.elements := by
  obtain ⟨-, ⟨-, -, rfl⟩ | ⟨_, _, -, -, rfl⟩ | ⟨-, rfl⟩ | ⟨-, rfl⟩ | ⟨-, rfl⟩ | ⟨-, rfl⟩ | ⟨-, -, rfl⟩
    | ⟨_, _, _, -, -, -, rfl⟩ | ⟨-, -, rfl⟩ | ⟨_, -, -, rfl⟩⟩ := hostTurn_cases h <;> rfl

/-- A step leaves every element, or the command it takes has an opcode that writes only its own. -/
theorem step_writes {s t : State} (h : step s = .next t) :
    t.elements = s.elements
      ∨ ∃ c ∈ s.bus.head?, ∃ o : Opcode, opNumber c = o.code.toNat ∧ WritesOnlyOwn o s.elements t.elements := by
  obtain ⟨-, h⟩ | ⟨c, rest, hbus, ⟨-, rfl⟩ | ⟨-, f, -, rfl⟩ | ⟨-, i, hdec, h⟩⟩ := step_cases h
  · exact .inl (hostTurn_elements h)
  · exact .inl rfl
  · exact .inl (State.elements_takeFault _ f c)
  · obtain ⟨o, hcode, -, -, -, -, rfl⟩ := decodeCommand_ok hdec
    have hw := exec_instr_writes h
    exact .inr ⟨c, by rw [hbus]; rfl, o, by rw [hcode, toNat_opField], hw⟩

/-- Read from the element's side: a changed element names the opcodes that own it (30_encoding R82). -/
theorem WritesOnlyOwn.owner {o : Opcode} {a b : Elements} (h : WritesOnlyOwn o a b) :
    (b.gpio ≠ a.gpio → o.code.toNat = 0x01 ∨ o.code.toNat = 0x11) ∧ (b.adc ≠ a.adc → o.code.toNat = 0x03)
      ∧ (b.dac ≠ a.dac → o.code.toNat = 0x15) ∧ (b.line ≠ a.line → o.code.toNat = 0x07)
      ∧ (b.irqOut ≠ a.irqOut → o.code.toNat = 0x07) ∧ (b.time ≠ a.time → o.code.toNat = 0x08)
      ∧ (b.queue ≠ a.queue → o.code.toNat = 0x09 ∨ o.code.toNat = 0x17) := by
  cases o with
  | setGpio | fwSetGpio | setAdc | fwSetDac | advance | nextFrame | fwPushByte =>
    obtain ⟨_, rfl⟩ := h
    simp [Opcode.code]
  | checkEdge =>
    obtain ⟨_, _, rfl⟩ := h
    simp [Opcode.code]
  | getGpio | getAdc | getDac | fwGetGpio | fwGetAdc | fwGetDac | fwReadTime =>
    obtain rfl : b = a := h
    simp

/-- Settles O37: a step that leaves the elements owes nothing; otherwise `WritesOnlyOwn.owner` of the opcode it ran. -/
theorem eachElementHasItsOnlyWriters : Obligations.EachElementHasItsOnlyWriters := by
  intro s t h
  obtain same | ⟨c, hc, o, hop, hw⟩ := step_writes h
  · simp only [State.elements, Elements.mk.injEq] at same
    simp [same]
  · have owner := hw.owner
    rw [← hop] at owner
    obtain ⟨gpio, adc, dac, line, irqOut, time, queue⟩ := owner
    exact ⟨fun ne => ⟨c, hc, gpio ne⟩, fun ne => ⟨c, hc, adc ne⟩, fun ne => ⟨c, hc, dac ne⟩, fun ne => ⟨c, hc, line ne⟩,
      fun ne => ⟨c, hc, irqOut ne⟩, fun ne => ⟨c, hc, time ne⟩, fun ne => ⟨c, hc, queue ne⟩⟩

end Sys2Proof.Machine

/-! ## The command words decode and encode back (O4, O5, O3)

The fifteen commands are one case: an opcode with an IDX and a DATA field, zero where its row reserves them. The fields of a
word determine it, and the two serial units are told apart by their tag. -/

namespace Sys2Proof

/-- The fields that an opcode reserves are zero (30_encoding R83, R84). -/
structure Opcode.ReservedZero (o : Opcode) (idx : Byte) (data : Word32) : Prop where
  idx : o.idxReserved = true → idx = 0
  data : o.dataReserved = true → data = 0

/-- The encoder gives an opcode's instruction the command of its fields. -/
theorem encode_instr {o : Opcode} {idx : Byte} {data : Word32} (h : o.ReservedZero idx data) :
    encode (o.instr idx data) = .command (o.command idx data) := by
  obtain ⟨hidx, hdata⟩ := h
  cases o with
  | setGpio | setAdc | fwSetGpio | fwSetDac => rfl
  | getGpio | getAdc | getDac | checkEdge | fwGetGpio | fwGetAdc | fwGetDac => rw [hdata rfl]; rfl
  | advance | fwPushByte => rw [hidx rfl]; rfl
  | nextFrame | fwReadTime => rw [hidx rfl, hdata rfl]; rfl

/-- The command of an opcode's fields passes every check of the decoder (R89). -/
theorem decodeCommand_command {o : Opcode} {idx : Byte} {data : Word32} (h : o.ReservedZero idx data) :
    decodeCommand (o.command idx data) = .ok (o.instr idx data) := by
  have hidx : ¬(o.idxReserved = true ∧ idx ≠ 0) := fun ⟨hr, hne⟩ => hne (h.idx hr)
  have hdata : ¬(o.dataReserved = true ∧ data ≠ 0) := fun ⟨hr, hne⟩ => hne (h.data hr)
  simp only [decodeCommand, Opcode.command, opField_commandWord, opcodeOf_code, rsvField_commandWord, idxField_commandWord,
    dataField_commandWord, ne_eq, not_true_eq_false, if_false, if_neg hidx, if_neg hdata]

theorem decode_encode_instr {o : Opcode} {idx : Byte} {data : Word32} (h : o.ReservedZero idx data) :
    decode (encode (o.instr idx data)) = some (o.instr idx data) := by
  rw [encode_instr h, decode, decodeCommand_command h]
  rfl

/-- A tagged unit of 32 payload bytes is one whole frame (R91). -/
theorem decodeUnit_quadrant {x y : Byte} {payload : List Byte} (h : payload.length = 32) :
    decodeUnit (tagQuad :: x :: y :: payload) = .unit (.quadrantUpdate x y payload) [] := by
  simp [decodeUnit, ← h]

/-- A byte other than the tag is a unit of its own (R94). -/
theorem decodeUnit_unrecognised {b : Byte} (h : b ≠ tagQuad) (rest : List Byte) :
    decodeUnit (b :: rest) = .unit (.unrecognisedByte b) rest := if_neg h

/-- Settles O4: the commands by `decode_encode_instr`, the reserved fields being written as zero; the serial units by their
tag. -/
theorem decodeOfEncodeIsTheInstruction : Obligations.DecodeOfEncodeIsTheInstruction := by
  intro i hwf
  cases i with
  | setGpio line value => exact decode_encode_instr (o := .setGpio) ⟨nofun, nofun⟩
  | getGpio line => exact decode_encode_instr (o := .getGpio) ⟨nofun, fun _ => rfl⟩
  | setAdc channel value => exact decode_encode_instr (o := .setAdc) ⟨nofun, nofun⟩
  | getAdc channel => exact decode_encode_instr (o := .getAdc) ⟨nofun, fun _ => rfl⟩
  | getDac channel => exact decode_encode_instr (o := .getDac) ⟨nofun, fun _ => rfl⟩
  | checkEdge line => exact decode_encode_instr (o := .checkEdge) ⟨nofun, fun _ => rfl⟩
  | advance elapsed => exact decode_encode_instr (o := .advance) ⟨fun _ => rfl, nofun⟩
  | nextFrame => exact decode_encode_instr (o := .nextFrame) ⟨fun _ => rfl, fun _ => rfl⟩
  | fwSetGpio line value => exact decode_encode_instr (o := .fwSetGpio) ⟨nofun, nofun⟩
  | fwGetGpio line => exact decode_encode_instr (o := .fwGetGpio) ⟨nofun, fun _ => rfl⟩
  | fwGetAdc channel => exact decode_encode_instr (o := .fwGetAdc) ⟨nofun, fun _ => rfl⟩
  | fwSetDac channel value => exact decode_encode_instr (o := .fwSetDac) ⟨nofun, nofun⟩
  | fwGetDac channel => exact decode_encode_instr (o := .fwGetDac) ⟨nofun, fun _ => rfl⟩
  | fwPushByte byte => exact decode_encode_instr (o := .fwPushByte) ⟨fun _ => rfl, nofun⟩
  | fwReadTime => exact decode_encode_instr (o := .fwReadTime) ⟨fun _ => rfl, fun _ => rfl⟩
  | quadrantUpdate x y payload =>
    have hlen : payload.length = 32 := of_decide_eq_true hwf
    simp only [encode, decode, decodeUnit_quadrant hlen]
  | unrecognisedByte byte =>
    have htag : byte ≠ tagQuad := of_decide_eq_true hwf
    simp only [encode, decode, decodeUnit_unrecognised htag]

/-- The four fields of a word are all of it (R80). -/
theorem commandWord_fields {w : Word64} (h : rsvField w = 0) :
    commandWord (opField w) (idxField w) (dataField w) = w := by
  have hrsv (i : Nat) (hlo : 32 ≤ i) (hhi : i < 48) : w.getLsbD i = false := by
    have := congrArg (BitVec.getLsbD · (i - 32)) h
    simpa [rsvField, show i - 32 < 16 by omega, show 32 + (i - 32) = i by omega] using this
  refine BitVec.eq_of_getLsbD_eq fun i hi => ?_
  rw [commandWord_getLsbD]
  split_ifs with h32 h48 h56
  · simp [dataField, h32]
  · exact (hrsv i (by omega) h48).symm
  · simp [idxField, show i - 48 < 8 by omega, show 48 + (i - 48) = i by omega]
  · simp [opField, show i - 56 < 8 by omega, show 56 + (i - 56) = i by omega]

/-- Settles O5: the checks that the decoder made leave nothing of the word outside the fields of the instruction
(`decodeCommand_ok`), and `commandWord_fields` puts the word together again. -/
theorem encodeOfDecodeIsTheCommand : Obligations.EncodeOfDecodeIsTheCommand := by
  rintro ⟨port, word⟩ i h
  obtain ⟨o, hcode, hport, hrsv, hidx, hdata, rfl⟩ := decodeCommand_ok h
  rw [encode_instr ⟨hidx, hdata⟩, Opcode.command, hcode, hport, commandWord_fields hrsv]

/-- Settles O3: each word is the encoding of its instruction, so this is O4 at eight instructions. -/
theorem workedWordsDecodeToTheirCommands : Obligations.WorkedWordsDecodeToTheirCommands :=
  ⟨decodeOfEncodeIsTheInstruction (.setGpio 32 1) rfl, decodeOfEncodeIsTheInstruction (.setAdc 1 4095) rfl,
    decodeOfEncodeIsTheInstruction (.checkEdge 13) rfl, decodeOfEncodeIsTheInstruction (.advance 0x37AEC33E#32) rfl,
    decodeOfEncodeIsTheInstruction .nextFrame rfl, decodeOfEncodeIsTheInstruction (.fwSetDac 0 32768) rfl,
    decodeOfEncodeIsTheInstruction (.fwPushByte 0x1A) rfl, decodeOfEncodeIsTheInstruction .fwReadTime rfl⟩

end Sys2Proof

/-! ## Commands one after the other: the step of a decoded command (O2) and a quadrant pushed and read back (O52) -/

namespace Sys2Proof.Machine

/-- A live block runs the first command that waits and decodes (30_encoding R89). -/
theorem step_command {s : State} {c : Command} {rest : List Command} {i : Instr} (hbus : s.bus = c :: rest)
    (hlive : s.fault = 0) (hdec : decodeCommand c = .ok i) : step s = exec i { s with bus := rest } := by
  obtain ⟨hfault, -⟩ | ⟨-, f, herr, -⟩ | ⟨-, j, hok, hfetch⟩ := fetch_command s c rest hbus
  · exact absurd hlive hfault
  · cases hdec.symm.trans herr
  · cases hdec.symm.trans hok
    simp only [step, hfetch]

/-- Settles O2: `step_command`. -/
theorem stepRunsTheDecodedCommand : Obligations.StepRunsTheDecodedCommand := fun _ _ _ _ => step_command

theorem steps_of_step {s t : State} (h : step s = .next t) (k : Nat) : steps (k + 1) s = steps k t := by
  simp only [steps, h]

/-! ### Pushing bytes (43_serial_frame_reader R181) -/

/-- The command that pushes one byte (30_encoding R97). -/
def pushCommand (b : Byte) : Command := Opcode.fwPushByte.command 0 (b.setWidth 32)

theorem pushQuad_eq (q : Quad) : pushQuad q = (frameBytes q).map pushCommand := rfl

theorem decodeCommand_pushCommand (b : Byte) : decodeCommand (pushCommand b) = .ok (.fwPushByte (b.setWidth 32)) :=
  decodeCommand_command (o := .fwPushByte) ⟨fun _ => rfl, nofun⟩

/-- A byte pushed on a live block whose queue is not full goes to the tail. -/
theorem execFwPushByte_byte {s : State} (b : Byte) (hlive : s.fault = 0) (hroom : s.queueFull = false) :
    execFwPushByte (b.setWidth 32) s = .next ((s.pushQueue b).respond .firmware .ack) := by
  have hle : (b.setWidth 32).toNat ≤ 255 := by
    have := b.isLt
    simp only [BitVec.toNat_setWidth]
    omega
  have hbyte : (b.setWidth 32).extractLsb' 0 8 = b := by
    ext i hi
    simp [hi, show i < 32 by omega]
  rw [execFwPushByte, whenLive_live _ _ hlive, withValue_ok _ _ _ _ _ hle, hbyte]
  simp [hroom]

theorem step_push {s : State} {b : Byte} {rest : List Command} (hlive : s.fault = 0) (hroom : s.queueFull = false)
    (hbus : s.bus = pushCommand b :: rest) :
    step s = .next { s with bus := rest, queue := s.queue ++ [b], response := some (.firmware, .ack) } :=
  (step_command hbus hlive (decodeCommand_pushCommand b)).trans
    (execFwPushByte_byte (s := { s with bus := rest }) b hlive hroom)

theorem queueFull_of_room {s : State} (h : ∀ n, s.params.queueCapacity = some n → s.queue.length < n) :
    s.queueFull = false :=
  decide_eq_false fun hcap => (h _ hcap).false

/-- As many steps as bytes that the queue has room for push them all, in order. -/
theorem steps_push {s : State} {b : Byte} {bs : List Byte} {rest : List Command} (k : Nat) (hlive : s.fault = 0)
    (hroom : ∀ n, s.params.queueCapacity = some n → s.queue.length + (b :: bs).length ≤ n)
    (hbus : s.bus = (b :: bs).map pushCommand ++ rest) :
    steps (k + (b :: bs).length) s =
      steps k { s with bus := rest, queue := s.queue ++ b :: bs, response := some (.firmware, .ack) } := by
  induction bs generalizing s b with
  | nil => exact steps_of_step (step_push hlive (queueFull_of_room hroom) hbus) k
  | cons b' bs ih =>
    have hnotFull : s.queueFull = false := queueFull_of_room fun n hn => by
      have := hroom n hn
      simp only [List.length_cons] at this
      omega
    have hfirst := step_push hlive hnotFull hbus
    calc steps (k + (b :: b' :: bs).length) s
      _ = steps (k + (b' :: bs).length) _ := steps_of_step hfirst _
      _ = steps k _ := ih hlive (fun n hn => by
            have := hroom n hn
            simp only [List.length_cons, List.length_append, List.length_nil] at this ⊢
            omega) rfl
      _ = _ := by simp only [List.append_assoc, List.singleton_append]

/-! ### The wire form of a quadrant (43_serial_frame_reader R183, R188) -/

theorem length_packLeds : ∀ leds : List Level, (packLeds leds).length = leds.length / 2
  | [] => rfl
  | [_] => by simp [packLeds]
  | a :: b :: rest => by
    simp only [packLeds, List.length_cons, length_packLeds rest]
    omega

/-- Unpacking takes each packed byte apart into the two values it was made of. -/
theorem unpackLeds_packLeds : ∀ {leds : List Level}, leds.length % 2 = 0 → unpackLeds (packLeds leds) = leds
  | [], _ => rfl
  | [_], h => by simp at h
  | a :: b :: rest, h => by
    have hrest : rest.length % 2 = 0 := by
      simp only [List.length_cons] at h
      omega
    rw [packLeds, unpackLeds, unpackLeds_packLeds hrest, BitVec.extractLsb'_append_eq_left,
      BitVec.extractLsb'_append_eq_right]

theorem length_frameBytes {q : Quad} (h : q.leds.length = 64) : (frameBytes q).length = 35 := by
  simp [frameBytes, length_packLeds, h]

/-- The reader gives back the quadrant whose wire bytes the queue holds, and leaves the queue empty. -/
theorem readFrame_frameBytes {q : Quad} (h : q.leds.length = 64) : readFrame (frameBytes q) = (some q, []) := by
  have hlen : (packLeds q.leds).length = 32 := by simp [length_packLeds, h]
  rw [frameBytes, readFrame_frame _ _ _ hlen.ge, List.take_of_length_le hlen.le, List.drop_of_length_le hlen.le,
    unpackLeds_packLeds (by simp [h])]

/-! ### Reading the quadrant back (43_serial_frame_reader R182) -/

theorem step_nextFrame {s : State} {rest : List Command} (hlive : s.fault = 0) (hbus : s.bus = nextFrameCommand :: rest) :
    step s = .next { s with bus := rest }.runReader :=
  (step_command hbus hlive (decodeCommand_command (o := .nextFrame) ⟨fun _ => rfl, fun _ => rfl⟩)).trans
    (whenLive_live _ _ hlive)

/-- One NEXT_FRAME on a queue that holds the wire bytes of one quadrant. -/
theorem step_nextFrame_frameBytes {s : State} {q : Quad} {rest : List Command} (hlive : s.fault = 0)
    (hqueue : s.queue = frameBytes q) (hleds : q.leds.length = 64) (hbus : s.bus = nextFrameCommand :: rest) :
    step s = .next { s with bus := rest, queue := [], response := some (.host, .frame (some q)) } := by
  rw [step_nextFrame hlive hbus, State.runReader, hqueue, readFrame_frameBytes hleds, State.respond]

/-- Settles O52: `steps_push` for the 35 wire bytes, then one NEXT_FRAME, whose reader finds exactly the quadrant
(`readFrame_frameBytes`). -/
theorem pushedQuadrantComesBackWhole : Obligations.PushedQuadrantComesBackWhole := by
  intro s q hlive hempty hroom hleds hbus
  rw [pushQuad_eq] at hbus
  have hlen := length_frameBytes hleds
  have hfits (n : Nat) (hn : s.params.queueCapacity = some n) : s.queue.length + (frameBytes q).length ≤ n := by
    rw [hempty, hlen]
    exact hroom n hn
  calc steps 36 s
    _ = steps (1 + (frameBytes q).length) s := by rw [hlen]
    _ = steps 1 { s with bus := [nextFrameCommand], queue := s.queue ++ frameBytes q, response := some (.firmware, .ack) } :=
      steps_push 1 hlive hfits hbus
    _ = steps 0 { s with bus := [], queue := [], response := some (.host, .frame (some q)) } :=
      steps_of_step (by exact step_nextFrame_frameBytes hlive (by simp [hempty]) hleds rfl) 0
    _ = .next { s with bus := [], response := some (.host, .frame (some q)) } := by rw [steps, ← hempty]

end Sys2Proof.Machine

/-! ## The register file's ten commands (O6 to O11)

Each shared operation is followed once on a live block with operands in range; the commands of both ports are uses of it. -/

namespace Sys2Proof.Machine

section Operations

variable {c : Command} {idx : Byte} {v : Word32} {s : State}

/-- A GPIO write with operands in range (40_register_file R111, R116). -/
theorem setGpioOp_ok (hlive : s.fault = 0) (h : idx.toNat < 64) (hv : v.toNat ≤ 1) :
    setGpioOp c idx v s =
      .next ((s.writeGpio ⟨idx.toNat, h⟩ (BitVec.ofNat 1 v.toNat)).respond c.port .ack) := by
  rw [setGpioOp, whenLive_live _ _ hlive, withLine_ok _ _ _ _ h, withValue_ok _ _ _ _ _ hv]
  rfl

/-- A GPIO read of a line in range (R112, R117). -/
theorem getGpioOp_ok (hlive : s.fault = 0) (h : idx.toNat < 64) :
    getGpioOp c idx s =
      .next (s.respond c.port (.value32 (BitVec.ofNat 32 (s.readGpio ⟨idx.toNat, h⟩).toNat))) := by
  rw [getGpioOp, whenLive_live _ _ hlive, withLine_ok _ _ _ _ h, BitVec.ofNat_toNat]

/-- An ADC write with operands in range (R113). -/
theorem setAdcOp_ok (hlive : s.fault = 0) (h : idx.toNat < 2) (hv : v.toNat ≤ 4095) :
    setAdcOp c idx v s =
      .next ((s.writeAdc ⟨idx.toNat, h⟩ (BitVec.ofNat 12 v.toNat)).respond c.port .ack) := by
  rw [setAdcOp, whenLive_live _ _ hlive, withChannel_ok _ _ _ _ h, withValue_ok _ _ _ _ _ hv]
  rfl

/-- An ADC read of a channel in range (R114, R118). -/
theorem getAdcOp_ok (hlive : s.fault = 0) (h : idx.toNat < 2) :
    getAdcOp c idx s =
      .next (s.respond c.port (.value32 (BitVec.ofNat 32 (s.readAdc ⟨idx.toNat, h⟩).toNat))) := by
  rw [getAdcOp, whenLive_live _ _ hlive, withChannel_ok _ _ _ _ h, BitVec.ofNat_toNat]

/-- A DAC write with operands in range (R119). -/
theorem setDacOp_ok (hlive : s.fault = 0) (h : idx.toNat < 2) (hv : v.toNat ≤ 65535) :
    setDacOp c idx v s =
      .next ((s.writeDac ⟨idx.toNat, h⟩ (BitVec.ofNat 16 v.toNat)).respond c.port .ack) := by
  rw [setDacOp, whenLive_live _ _ hlive, withChannel_ok _ _ _ _ h, withValue_ok _ _ _ _ _ hv]
  rfl

/-- A DAC read of a channel in range (R115, R120). -/
theorem getDacOp_ok (hlive : s.fault = 0) (h : idx.toNat < 2) :
    getDacOp c idx s =
      .next (s.respond c.port (.value32 (BitVec.ofNat 32 (s.readDac ⟨idx.toNat, h⟩).toNat))) := by
  rw [getDacOp, whenLive_live _ _ hlive, withChannel_ok _ _ _ _ h, BitVec.ofNat_toNat]

end Operations

/-- Settles O6: both commands are `setGpioOp`, each with its own port's command. -/
theorem gpioWritesStoreTheBitAndAcknowledge : Obligations.GpioWritesStoreTheBitAndAcknowledge :=
  fun _ _ _ h hlive hv => ⟨setGpioOp_ok hlive h hv, setGpioOp_ok hlive h hv⟩

/-- Settles O7: both commands are `getGpioOp`. -/
theorem gpioReadsReturnTheBit : Obligations.GpioReadsReturnTheBit :=
  fun _ _ h hlive => ⟨getGpioOp_ok hlive h, getGpioOp_ok hlive h⟩

/-- Settles O8: the command is `setAdcOp` on the host port. -/
theorem adcWriteStoresTheValueAndAcknowledges : Obligations.AdcWriteStoresTheValueAndAcknowledges :=
  fun _ _ _ h hlive hv => setAdcOp_ok hlive h hv

/-- Settles O9: both commands are `getAdcOp`. -/
theorem adcReadsReturnTheValue : Obligations.AdcReadsReturnTheValue :=
  fun _ _ h hlive => ⟨getAdcOp_ok hlive h, getAdcOp_ok hlive h⟩

/-- Settles O10: the command is `setDacOp` on the firmware port. -/
theorem dacWriteStoresTheValueAndAcknowledges : Obligations.DacWriteStoresTheValueAndAcknowledges :=
  fun _ _ _ h hlive hv => setDacOp_ok hlive h hv

/-- Settles O11: both commands are `getDacOp`. -/
theorem dacReadsReturnTheValue : Obligations.DacReadsReturnTheValue :=
  fun _ _ h hlive => ⟨getDacOp_ok hlive h, getDacOp_ok hlive h⟩

end Sys2Proof.Machine

/-! ## A check sees only the latest write (O41)

What a check does is said by `changed` alone, which compares the entry with the register. The writes leave the entry and the
events as they are, and the register keeps the last of them. -/

namespace Sys2Proof.Machine

@[simp] theorem State.readGpio_writeGpio_same (s : State) (l : Fin 64) (v : Bit) : (s.writeGpio l v).readGpio l = v :=
  Vector.getElem_set_self l.isLt

@[simp] theorem State.readLine_writeLine_same (s : State) (l : Fin 64) (e : LineEntry) :
    (s.writeLine l e).readLine l = e :=
  Vector.getElem_set_self l.isLt

@[simp] theorem State.readGpio_respond (s : State) (p : Port) (r : Response) (l : Fin 64) :
    (s.respond p r).readGpio l = s.readGpio l := rfl

@[simp] theorem State.readLine_respond (s : State) (p : Port) (r : Response) (l : Fin 64) :
    (s.respond p r).readLine l = s.readLine l := rfl

@[simp] theorem State.readLine_emitIrq (s : State) (n : Nat) (l : Fin 64) : (s.emitIrq n).readLine l = s.readLine l := rfl

theorem changed_iff (s : State) (l : Fin 64) :
    changed s l = true ↔ ∃ prev, s.readLine l = .seen prev ∧ s.readGpio l ≠ prev := by
  unfold changed
  cases s.readLine l with
  | unseeded => simp
  | seen prev => simp

/-- A check updates the entry and emits the line's event if the line changed; otherwise the event list stays, and the entry is
left at the register's value all the same (42_interrupt_dispatcher R161, R162). -/
theorem checkLine_effect (s : State) (l : Fin 64) :
    (s.checkLine l).response = some (.host, .value32 (if changed s l = true then 1 else 0))
      ∧ (s.checkLine l).irqOut = (if changed s l = true then s.irqOut ++ [⟨s.irqOf l⟩] else s.irqOut)
      ∧ (s.checkLine l).readLine l = .seen (s.readGpio l) := by
  obtain ⟨hentry, heq⟩ | ⟨prev, hentry, hne, heq⟩ | ⟨hentry, heq⟩ := checkLine_cases s l
  · have hquiet : ¬ changed s l = true := by simp [changed_iff, hentry]
    simp [heq, hquiet]
  · have hfires : changed s l = true := (changed_iff s l).2 ⟨prev, hentry, hne⟩
    simp [heq, hfires]
  · have hquiet : ¬ changed s l = true := by simp [changed_iff, hentry]
    simp [heq, hquiet, hentry]

/-- CHECK_EDGE of a watched line on a live block. -/
theorem exec_checkEdge_watched {s : State} {line : Byte} (hlive : s.fault = 0) (h : line.toNat < 64)
    (hwatched : s.watched ⟨line.toNat, h⟩ = true) :
    exec (.checkEdge line) s = .next (s.checkLine ⟨line.toNat, h⟩) :=
  calc execCheckEdge line s
    _ = if s.watched ⟨line.toNat, h⟩ then .next (s.checkLine ⟨line.toNat, h⟩)
        else .next (s.takeFault .unwatchedLine (Opcode.checkEdge.command line 0)) := by
      rw [execCheckEdge, whenLive_live _ _ hlive, withLine_ok _ _ _ _ h]
    _ = _ := if_pos hwatched

/-- The GPIO write of either port. -/
theorem exec_gpioWrite {s : State} (p : Port) {line : Byte} {v : Word32} (hlive : s.fault = 0) (h : line.toNat < 64)
    (hv : v.toNat ≤ 1) :
    exec (gpioWrite p line v) s =
      .next ((s.writeGpio ⟨line.toNat, h⟩ (BitVec.ofNat 1 v.toNat)).respond p .ack) := by
  cases p with
  | host => exact setGpioOp_ok hlive h hv
  | firmware => exact setGpioOp_ok hlive h hv

/-- Settles O41: after the two writes the register holds the later value and the entry is the first state's, so the check fires
as `changed` says (`checkLine_effect`). -/
theorem checkSeesOnlyTheLatestWrite : Obligations.CheckSeesOnlyTheLatestWrite := by
  intro s p q line v w h hlive hv hw hwatched
  set l : Fin 64 := ⟨line.toNat, h⟩
  set t₁ := (s.writeGpio l (BitVec.ofNat 1 v.toNat)).respond p .ack
  set t₂ := (t₁.writeGpio l (BitVec.ofNat 1 w.toNat)).respond q .ack
  have hgpio : t₂.readGpio l = BitVec.ofNat 1 w.toNat := by simp [t₂]
  have hfires := changed_iff t₂ l
  obtain ⟨hresponse, hirqs, hline⟩ := checkLine_effect t₂ l
  rw [hgpio] at hfires hline
  exact ⟨t₁, t₂, t₂.checkLine l, changed t₂ l, exec_gpioWrite p hlive h hv, exec_gpioWrite (s := t₁) q hlive h hw,
    exec_checkEdge_watched (s := t₂) hlive h (decide_eq_true hwatched), hfires, hresponse, hirqs, hline⟩

end Sys2Proof.Machine

/-! ## The timer: widening (O46), ADVANCE (O15, O43, O44, O45) and FW_READ_TIME (O16)

A binary64 that is neither negative nor NaN is its own magnitude (`timeOk`), and the magnitude of a sum of two such values is
either infinity or the rounding of the sum of their units. A rounding never goes below a magnitude that the exact value
reaches, so TIME never falls, and a magnitude's own value rounds to it, so adding zero leaves TIME as it is. -/

namespace Sys2Proof.Machine

/-! ### Widening (41_timer R141) -/

/-- The value of a magnitude has at most `f + 1` significant bits. -/
theorem unitsOf_eq_significand (f m : Nat) : ∃ q j, q < 2 ^ (f + 1) ∧ unitsOf f m = q * 2 ^ j := by
  have hp : 0 < 2 ^ f := by positivity
  rw [unitsOf, Nat.shiftRight_eq_div_pow, Nat.one_shiftLeft, Nat.shiftLeft_eq, pow_succ]
  split
  case isTrue subnormal =>
    have := (Nat.div_eq_zero_iff_lt hp).1 subnormal
    exact ⟨m, 0, by omega, by simp⟩
  case isFalse normal =>
    have := Nat.mod_lt m hp
    exact ⟨m % 2 ^ f + 2 ^ f, m / 2 ^ f - 1, by omega, rfl⟩

theorem unitsOf_inf32 : unitsOf 23 inf32 = 2 ^ 23 * 2 ^ 254 := by
  rw [show inf32 = 254 * 2 ^ 23 + 2 ^ 23 by decide]
  exact unitsOf_eq 23 254 (2 ^ 23) (by decide) (.inr le_rfl)

theorem unitsOf_inf64 : unitsOf 52 inf64 = 2 ^ 52 * 2 ^ 2046 := by
  rw [show inf64 = 2046 * 2 ^ 52 + 2 ^ 52 by decide]
  exact unitsOf_eq 52 2046 (2 ^ 52) (by decide) (.inr le_rfl)

/-- The value of a finite binary32 in a smaller unit, `2 ^ k` to its own, is that of a finite binary64. -/
theorem exists_unitsOf_units32 {e : Word32} {k : Nat} (he : mag32 e < inf32) (hk : k ≤ 1821) :
    ∃ m < inf64, unitsOf 52 m = units32 e * 2 ^ k := by
  obtain ⟨q, j, hq, hunits⟩ := unitsOf_eq_significand 23 (mag32 e)
  obtain ⟨m, hm⟩ := exists_unitsOf 52 (j + k) q (hq.trans (by norm_num))
  have hvalue : unitsOf 52 m = units32 e * 2 ^ k := by rw [hm, units32, hunits, pow_add, Nat.mul_assoc]
  have hbelow : unitsOf 52 m < unitsOf 52 inf64 :=
    calc unitsOf 52 m
      _ = unitsOf 23 (mag32 e) * 2 ^ k := hvalue
      _ < unitsOf 23 inf32 * 2 ^ k := Nat.mul_lt_mul_of_pos_right (unitsOf_strictMono 23 he) (by positivity)
      _ = 2 ^ (23 + 254 + k) := by simp only [unitsOf_inf32, pow_add]
      _ ≤ 2 ^ (52 + 2046) := Nat.pow_le_pow_right (by decide) (by omega)
      _ = unitsOf 52 inf64 := by simp only [unitsOf_inf64, pow_add]
  exact ⟨m, (unitsOf_strictMono 52).lt_iff_lt.1 hbelow, hvalue⟩

/-- A magnitude's own value rounds to it in binary64. -/
theorem round64_exact {m : Nat} (hm : m ≤ inf64) : round64 (unitsOf 52 m) 0 = m := by
  simpa only [round64, pow_zero, Nat.mul_one] using roundMag_exact 52 inf64 0 m hm

theorem round64_shiftLeft {u k m : Nat} (hm : m ≤ inf64) (h : unitsOf 52 m = u * 2 ^ k) : round64 (u <<< k) 0 = m := by
  rw [Nat.shiftLeft_eq, ← h, round64_exact hm]

theorem widen_of_finite {e : Word32} (he : mag32 e < inf32) :
    ∃ m < inf64, unitsOf 52 m = units32 e * 2 ^ 925 ∧ widen e = pack64 e.msb m := by
  obtain ⟨m, hm, hvalue⟩ := exists_unitsOf_units32 (k := 925) he (by decide)
  have hwiden : widen e = pack64 e.msb (round64 (units32 e <<< 925) 0) := by
    simp [widen, isNan32, isInf32, he.ne, he.le]
  exact ⟨m, hm, hvalue, hwiden.trans (congrArg _ (round64_shiftLeft hm.le hvalue))⟩

/-- Settles O46: the exact value has a magnitude of its own, which the widening packs with the operand's sign. -/
theorem wideningIsExact : Obligations.WideningIsExact := by
  intro e he
  obtain ⟨m, hm, hvalue, hwiden⟩ := widen_of_finite he
  rw [units64, hwiden, mag64_pack64 _ _ hm.le, msb_pack64 _ _ hm.le]
  exact ⟨hm, hvalue, rfl⟩

/-! ### Values neither negative nor NaN (10_state R31) -/

theorem mag64_of_le_inf64 {x : Word64} (h : x.toNat ≤ inf64) : mag64 x = x.toNat := by
  unfold inf64 at h
  exact Nat.mod_eq_of_lt (by omega)

theorem msb_of_le_inf64 {x : Word64} (h : x.toNat ≤ inf64) : x.msb = false := by
  unfold inf64 at h
  rw [BitVec.msb_eq_decide]
  exact decide_eq_false (by omega)

theorem signedUnits64_of_le_inf64 {x : Word64} (h : x.toNat ≤ inf64) : signedUnits64 x = unitsOf 52 x.toNat := by
  simp [signedUnits64, units64, msb_of_le_inf64 h, mag64_of_le_inf64 h]

theorem toNat_pack64_false {m : Nat} (h : m ≤ inf64) : (pack64 false m).toNat = m := by
  simp [toNat_pack64 false m h]

/-- Everything a sum of such values can be: an operand that is infinite, or the rounding of the exact sum. -/
theorem fadd64_cases {a b : Word64} (ha : a.toNat ≤ inf64) (hb : b.toNat ≤ inf64) :
    (a.toNat = inf64 ∧ fadd64 a b = a)
      ∨ (a.toNat < inf64 ∧ b.toNat = inf64 ∧ fadd64 a b = b)
      ∨ (a.toNat < inf64 ∧ b.toNat < inf64
        ∧ (fadd64 a b).toNat = round64 (unitsOf 52 a.toNat + unitsOf 52 b.toNat) 0) := by
  have hma := mag64_of_le_inf64 ha
  have hmb := mag64_of_le_inf64 hb
  have hna : isNan64 a = false := by simp [isNan64, hma, ha]
  have hnb : isNan64 b = false := by simp [isNan64, hmb, hb]
  rcases ha.eq_or_lt with hinf | hfin
  · exact .inl ⟨hinf, by simp [fadd64, hna, hnb, isInf64, hma, hinf, msb_of_le_inf64 ha, msb_of_le_inf64 hb]⟩
  rcases hb.eq_or_lt with hbinf | hbfin
  · exact .inr (.inl ⟨hfin, hbinf, by simp [fadd64, hna, hnb, isInf64, hma, hmb, hfin.ne, hbinf]⟩)
  have hsum : signedUnits64 a + signedUnits64 b = ((unitsOf 52 a.toNat + unitsOf 52 b.toNat : Nat) : Int) := by
    rw [signedUnits64_of_le_inf64 ha, signedUnits64_of_le_inf64 hb, Nat.cast_add]
  have hsign : sumSign64 a b = false := by
    rw [sumSign64, hsum, msb_of_le_inf64 ha, decide_eq_false (Int.natCast_nonneg _).not_gt]
    exact ite_self _
  refine .inr (.inr ⟨hfin, hbfin, ?_⟩)
  rw [fadd64_of_finite (hma ▸ hfin) (hmb ▸ hbfin), hsign, hsum, Int.natAbs_natCast, toNat_pack64_false (round64_le _ _)]

/-- Adding such a value never goes below the other one and gives such a value again. -/
theorem le_fadd64 {a b : Word64} (ha : a.toNat ≤ inf64) (hb : b.toNat ≤ inf64) :
    a.toNat ≤ (fadd64 a b).toNat ∧ (fadd64 a b).toNat ≤ inf64 := by
  obtain ⟨-, hsum⟩ | ⟨-, hinf, hsum⟩ | ⟨-, -, hsum⟩ := fadd64_cases ha hb
  · rw [hsum]
    exact ⟨le_rfl, ha⟩
  · rw [hsum, hinf]
    exact ⟨ha, le_rfl⟩
  · have hreach : unitsOf 52 a.toNat * 2 ^ 0 ≤ unitsOf 52 a.toNat + unitsOf 52 b.toNat := by
      rw [pow_zero, Nat.mul_one]
      exact Nat.le_add_right _ _
    rw [hsum]
    exact ⟨le_roundMag 52 inf64 _ 0 _ ha hreach, round64_le _ _⟩

/-- Adding +0 changes no bit. -/
theorem fadd64_zero {a : Word64} (ha : a.toNat ≤ inf64) : fadd64 a 0 = a := by
  obtain ⟨-, hsum⟩ | ⟨-, hinf, -⟩ | ⟨-, -, hsum⟩ := fadd64_cases ha (b := 0) (Nat.zero_le _)
  · exact hsum
  · exact absurd hinf (by decide)
  · apply BitVec.eq_of_toNat_eq
    calc (fadd64 a 0).toNat
      _ = round64 (unitsOf 52 a.toNat) 0 := hsum
      _ = a.toNat := round64_exact ha

/-- The product of the timer's scale and a value neither negative nor NaN nor infinite. -/
theorem fmul64_scale {k w : Word64} (hk : isFinitePositive64 k = true) (hw : w.toNat < inf64) :
    fmul64 k w = pack64 false (round64 (units64 k * unitsOf 52 w.toNat) 1074) := by
  simp only [isFinitePositive64, Bool.and_eq_true, Bool.not_eq_true', decide_eq_true_eq] at hk
  obtain ⟨⟨hsign, -⟩, hfin⟩ := hk
  have hmag := mag64_of_le_inf64 hw.le
  rw [fmul64_of_finite hfin (hmag ▸ hw), hsign, msb_of_le_inf64 hw.le, units64, units64, hmag]
  rfl

/-! ### The clamped operand (41_timer R142) -/

theorem gtZero32_iff (e : Word32) : gtZero32 e = true ↔ e.msb = false ∧ 0 < mag32 e ∧ mag32 e ≤ inf32 := by
  simp [gtZero32, isNan32, and_assoc]

theorem eq_inf_of_mag32 {e : Word32} (hsign : e.msb = false) (hmag : mag32 e = inf32) : e = 0x7F800000#32 := by
  rw [BitVec.msb_eq_decide, decide_eq_false_iff_not] at hsign
  apply BitVec.eq_of_toNat_eq
  unfold mag32 inf32 at hmag
  simp only [BitVec.toNat_ofNat]
  omega

theorem clampElapsed_of_not_gtZero {e : Word32} (h : gtZero32 e = false) : clampElapsed e = 0 := by
  simp [clampElapsed, h]

/-- A clamped operand is finite and has a plus sign, unless the operand is +infinity. -/
theorem clampElapsed_finite {e : Word32} (he : e ≠ 0x7F800000#32) :
    (clampElapsed e).msb = false ∧ mag32 (clampElapsed e) < inf32 := by
  unfold clampElapsed
  split
  case isTrue hpos =>
    obtain ⟨hsign, -, hle⟩ := (gtZero32_iff e).1 hpos
    exact ⟨hsign, hle.lt_of_ne fun hinf => he (eq_inf_of_mag32 hsign hinf)⟩
  case isFalse => decide

theorem toNat_widen_clampElapsed {e : Word32} (he : e ≠ 0x7F800000#32) : (widen (clampElapsed e)).toNat < inf64 := by
  obtain ⟨hsign, hfin⟩ := clampElapsed_finite he
  obtain ⟨m, hm, -, hwiden⟩ := widen_of_finite hfin
  rw [hwiden, hsign, toNat_pack64_false hm.le]
  exact hm

/-- The scaled elapsed time is neither negative nor NaN. -/
theorem scaledElapsed_le {k : Word64} {e : Word32} (hk : isFinitePositive64 k = true) (he : e ≠ 0x7F800000#32) :
    (fmul64 k (widen (clampElapsed e))).toNat ≤ inf64 := by
  rw [fmul64_scale hk (toNat_widen_clampElapsed he), toNat_pack64_false (round64_le _ _)]
  exact round64_le _ _

/-- An operand that is not above zero scales to +0. -/
theorem scaledElapsed_of_not_gtZero {k : Word64} {e : Word32} (hk : isFinitePositive64 k = true)
    (h : gtZero32 e = false) : fmul64 k (widen (clampElapsed e)) = 0 := by
  have hwiden : widen 0 = 0 := by decide
  have hround : round64 0 1074 = 0 := by decide
  rw [clampElapsed_of_not_gtZero h, hwiden, fmul64_scale hk (by decide)]
  simp [unitsOf, hround, pack64]

/-! ### The commands -/

/-- ADVANCE on a live block of every operand but +infinity (R141). -/
theorem exec_advance_live {s : State} {e : Word32} (hlive : s.fault = 0) (he : e ≠ 0x7F800000#32) :
    exec (.advance e) s =
      .next ((s.writeTime (advancedTime s.params.timerScale s.time e)).respond .host .ack) := by
  have hfinite : ¬ (isInf32 e && !e.msb) = true := by
    simp only [Bool.and_eq_true, Bool.not_eq_true', isInf32, decide_eq_true_eq]
    exact fun ⟨hmag, hsign⟩ => he (eq_inf_of_mag32 hsign hmag)
  calc execAdvance e s
    _ = _ := whenLive_live _ _ hlive
    _ = _ := if_neg hfinite

/-- An advance that leaves TIME's bits as they are changes nothing but the response. -/
theorem exec_advance_same {s : State} {e : Word32} (hlive : s.fault = 0) (he : e ≠ 0x7F800000#32)
    (hsame : advancedTime s.params.timerScale s.time e = s.time) :
    exec (.advance e) s = .next { s with response := some (.host, .ack) } := by
  rw [exec_advance_live hlive he, hsame]
  rfl

/-- Settles O15: `exec_advance_live`. -/
theorem advanceAddsTheScaledElapsedTime : Obligations.AdvanceAddsTheScaledElapsedTime :=
  fun _ _ => exec_advance_live

/-- Settles O16: the command only answers. -/
theorem readTimeReturnsTheCounterBits : Obligations.ReadTimeReturnsTheCounterBits :=
  fun _ hlive => whenLive_live _ _ hlive

/-- Settles O43: TIME and the scaled elapsed time are neither negative nor NaN, and such a sum does not fall (`le_fadd64`). -/
theorem advanceNeverDecreasesTime : Obligations.AdvanceNeverDecreasesTime :=
  fun _ _ hlive hscale htime he =>
    ⟨_, exec_advance_live hlive he, hlive, le_fadd64 htime (scaledElapsed_le hscale he)⟩

/-- Settles O44: the operand scales to +0, which a sum does not see. -/
theorem clampedAdvanceLeavesNoTrace : Obligations.ClampedAdvanceLeavesNoTrace := by
  intro s e hlive hscale htime hclamp
  have he : e ≠ 0x7F800000#32 := by
    rintro rfl
    exact absurd hclamp (by decide)
  apply exec_advance_same hlive he
  rw [advancedTime, scaledElapsed_of_not_gtZero hscale hclamp, fadd64_zero htime]

/-- Settles O45: TIME does not fall below +infinity and never passes it. -/
theorem timeAtInfinityStaysThere : Obligations.TimeAtInfinityStaysThere := by
  intro s e hlive hscale htime he
  have hinf : s.time.toNat = inf64 := by rw [htime]; rfl
  obtain ⟨hle, hge⟩ := le_fadd64 hinf.le (scaledElapsed_le hscale he)
  exact exec_advance_same hlive he (BitVec.eq_of_toNat_eq (by rw [advancedTime]; omega))

end Sys2Proof.Machine

/-! ## The checks of watched lines: one check (O12, O13, O14, O40), the only source of events (O39), one dispatch (O42)

A check changes only its line's entry, the event list and the response, all three as the register and the entry say, so one
equation (`checkLine_eq`) gives its result and its frame. The commands of a dispatch run as a fold of checks over WATCH_ORDER;
no check touches another line's entry, so on a list without repeats the fold finds each line changed exactly if it was at the
start. -/

namespace Sys2Proof

theorem Opcode.code_injective : Function.Injective Opcode.code := fun o o' h =>
  Option.some.inj (by rw [← opcodeOf_code o, h, opcodeOf_code])

end Sys2Proof

namespace Sys2Proof.Machine

/-! ### One check (42_interrupt_dispatcher R161) -/

@[simp] theorem State.writeLine_readLine (s : State) (l : Fin 64) : s.writeLine l (s.readLine l) = s := by
  simp only [State.writeLine, State.readLine, Vector.set_getElem_self]

theorem State.readLine_writeLine_ne (s : State) {k l : Fin 64} (e : LineEntry) (h : k ≠ l) :
    (s.writeLine l e).readLine k = s.readLine k :=
  Vector.getElem_set_ne l.isLt k.isLt fun hval => h (Fin.ext hval.symm)

theorem changed_of_seen {s : State} {l : Fin 64} {prev : Bit} (hentry : s.readLine l = .seen prev)
    (hne : s.readGpio l ≠ prev) : changed s l = true :=
  (changed_iff s l).2 ⟨prev, hentry, hne⟩

theorem changed_of_unseeded {s : State} {l : Fin 64} (hentry : s.readLine l = .unseeded) : changed s l = false := by
  simp only [changed, hentry]

theorem changed_of_settled {s : State} {l : Fin 64} (hentry : s.readLine l = .seen (s.readGpio l)) :
    changed s l = false := by
  simp [changed, hentry]

/-- The whole effect of a check: whatever the entry held it holds the register's value afterwards, and `changed` alone decides
the event and the response. -/
theorem checkLine_eq (s : State) (l : Fin 64) :
    s.checkLine l =
      { s.writeLine l (.seen (s.readGpio l)) with
        irqOut := if changed s l = true then s.irqOut ++ [⟨s.irqOf l⟩] else s.irqOut
        response := some (.host, .value32 (if changed s l = true then 1 else 0)) } := by
  obtain ⟨hentry, heq⟩ | ⟨prev, hentry, hne, heq⟩ | ⟨hentry, heq⟩ := checkLine_cases s l
  · rw [heq, changed_of_unseeded hentry]
    rfl
  · rw [heq, changed_of_seen hentry hne]
    rfl
  · rw [heq, changed_of_settled hentry, ← hentry, s.writeLine_readLine]
    rfl

/-- A check of a settled line answers 0 and changes nothing else. -/
theorem checkLine_of_settled {s : State} {l : Fin 64} (hentry : s.readLine l = .seen (s.readGpio l)) :
    s.checkLine l = s.respond .host (.value32 0) := by
  rw [checkLine_eq, changed_of_settled hentry, ← hentry, s.writeLine_readLine]
  rfl

/-- CHECK_EDGE of a watched line on a live block, for the line its operand names. -/
theorem exec_checkEdge_line {s : State} {l : Fin 64} {line : Byte} (hlive : s.fault = 0) (hl : l.val = line.toNat)
    (hwatched : s.watched l = true) : exec (.checkEdge line) s = .next (s.checkLine l) := by
  have hline : line.toNat < 64 := hl ▸ l.isLt
  obtain rfl : l = ⟨line.toNat, hline⟩ := Fin.ext hl
  exact exec_checkEdge_watched hlive hline hwatched

/-- Settles O12: an unseeded entry does not count as changed, so `checkLine_eq` only stores the value. -/
theorem firstCheckSeedsTheEntry : Obligations.FirstCheckSeedsTheEntry := by
  intro s line h hlive hwatched hentry
  have hquiet : changed s ⟨line.toNat, h⟩ = false := changed_of_unseeded hentry
  rw [exec_checkEdge_watched hlive h (decide_eq_true hwatched), checkLine_eq, hquiet]
  rfl

/-- Settles O13: an entry that differs, either way, is changed, so `checkLine_eq` stores the value and emits one event. -/
theorem changedLineFiresExactlyOnce : Obligations.ChangedLineFiresExactlyOnce := by
  intro s line prev h hlive hwatched hentry hne
  have hfires : changed s ⟨line.toNat, h⟩ = true := changed_of_seen hentry hne
  rw [exec_checkEdge_watched hlive h (decide_eq_true hwatched), checkLine_eq, hfires]
  rfl

/-- Settles O14: `checkLine_of_settled`. -/
theorem unchangedLineDoesNotFire : Obligations.UnchangedLineDoesNotFire := by
  intro s line h hlive hwatched hentry
  have hsettled : s.readLine ⟨line.toNat, h⟩ = .seen (s.readGpio ⟨line.toNat, h⟩) := hentry
  rw [exec_checkEdge_watched hlive h (decide_eq_true hwatched), checkLine_of_settled hsettled]
  rfl

/-! ### What a check leaves unchanged -/

@[simp] theorem checkLine_gpio (s : State) (l : Fin 64) : (s.checkLine l).gpio = s.gpio := by rw [checkLine_eq]; rfl
@[simp] theorem checkLine_fault (s : State) (l : Fin 64) : (s.checkLine l).fault = s.fault := by rw [checkLine_eq]; rfl
@[simp] theorem checkLine_params (s : State) (l : Fin 64) : (s.checkLine l).params = s.params := by rw [checkLine_eq]; rfl
@[simp] theorem checkLine_bus (s : State) (l : Fin 64) : (s.checkLine l).bus = s.bus := by rw [checkLine_eq]; rfl

@[simp] theorem checkLine_readGpio (s : State) (l k : Fin 64) : (s.checkLine l).readGpio k = s.readGpio k := by
  simp only [State.readGpio, checkLine_gpio]

@[simp] theorem checkLine_watched (s : State) (l k : Fin 64) : (s.checkLine l).watched k = s.watched k := by
  simp only [State.watched, checkLine_params]

@[simp] theorem checkLine_irqOf (s : State) (l k : Fin 64) : (s.checkLine l).irqOf k = s.irqOf k := by
  simp only [State.irqOf, checkLine_params]

theorem checkLine_readLine_ne (s : State) {k l : Fin 64} (h : k ≠ l) : (s.checkLine l).readLine k = s.readLine k := by
  rw [checkLine_eq]
  exact s.readLine_writeLine_ne _ h

theorem changed_checkLine_ne (s : State) {k l : Fin 64} (h : k ≠ l) : changed (s.checkLine l) k = changed s k := by
  simp only [changed, checkLine_readLine_ne s h, checkLine_readGpio]

/-- A check leaves its line settled. -/
theorem checkLine_settled (s : State) (l : Fin 64) :
    (s.checkLine l).readLine l = .seen ((s.checkLine l).readGpio l) := by
  obtain ⟨-, -, hentry⟩ := checkLine_effect s l
  rw [hentry, checkLine_readGpio]

/-! ### A second check (42_interrupt_dispatcher R170) -/

/-- On a live block a CHECK_EDGE that does not fault is the check of a watched line. -/
theorem exec_checkEdge_unfaulted {s t : State} {line : Byte} (hlive : s.fault = 0)
    (h : exec (.checkEdge line) s = .next t) (hunfaulted : t.fault = 0) :
    ∃ l : Fin 64, l.val = line.toNat ∧ s.watched l = true ∧ t = s.checkLine l := by
  obtain ⟨hfault, -⟩ | ⟨-, h⟩ := whenLive_cases h
  · exact absurd hlive hfault
  obtain ⟨l, hl, h⟩ | ⟨-, rfl⟩ := withLine_cases h
  · split_ifs at h with hwatched
    · exact ⟨l, hl, hwatched, (Host.Outcome.next.inj h).symm⟩
    · cases h
      exact absurd hunfaulted (s.takeFault_fault_ne_zero _ _)
  · exact absurd hunfaulted (s.takeFault_fault_ne_zero _ _)

/-- Settles O40: the first check leaves its line settled (`checkLine_settled`), and a settled line's check only answers 0. -/
theorem secondCheckFiresNothing : Obligations.SecondCheckFiresNothing := by
  intro s t line hlive hfirst hunfaulted
  obtain ⟨l, hl, hwatched, rfl⟩ := exec_checkEdge_unfaulted hlive hfirst hunfaulted
  rw [exec_checkEdge_line hunfaulted hl ((checkLine_watched s l l).trans hwatched),
    checkLine_of_settled (checkLine_settled s l)]
  rfl

/-! ### The only source of events (42_interrupt_dispatcher R160, R165, R167) -/

/-- No opcode but CHECK_EDGE's owns the event list. -/
theorem WritesOnlyOwn.irqOut_eq {o : Opcode} {a b : Elements} (h : WritesOnlyOwn o a b) (ho : o ≠ .checkEdge) :
    b.irqOut = a.irqOut := by
  obtain ⟨-, -, -, -, hirqs, -, -⟩ := h.owner
  by_contra hne
  exact ho (Opcode.code_injective (BitVec.eq_of_toNat_eq (hirqs hne)))

theorem lineIdx_of_val {l : Fin 64} {line : Byte} (h : l.val = line.toNat) : lineIdx l = line := by
  rw [lineIdx, h, BitVec.ofNat_toNat, BitVec.setWidth_eq]

/-- A CHECK_EDGE leaves the event list, or it is the check of a watched line that changed. -/
theorem exec_checkEdge_irqOut {s t : State} {line : Byte} (h : exec (.checkEdge line) s = .next t) :
    t.irqOut = s.irqOut
      ∨ ∃ l : Fin 64, lineIdx l = line ∧ s.watched l = true ∧ changed s l = true ∧ t = s.checkLine l := by
  obtain rfl | ⟨f, rfl⟩ | ⟨l, hl, hwatched, rfl⟩ := execCheckEdge_cases h
  · exact .inl rfl
  · exact .inl (s.takeFault_irqOut f _)
  · by_cases hchanged : changed s l = true
    · exact .inr ⟨l, lineIdx_of_val hl, hwatched, hchanged, rfl⟩
    · obtain ⟨-, hirqs, -⟩ := checkLine_effect s l
      exact .inl (hirqs.trans (if_neg hchanged))

/-- Settles O39: of all steps only that of a CHECK_EDGE may write the event list, and that command's effect is
`exec_checkEdge_irqOut`; the command itself is read back from its instruction (O5). -/
theorem eventsComeOnlyFromTriggeredChecks : Obligations.EventsComeOnlyFromTriggeredChecks := by
  intro s t h
  obtain ⟨-, h⟩ | ⟨c, rest, hbus, ⟨-, rfl⟩ | ⟨-, f, -, rfl⟩ | ⟨-, i, hdec, h⟩⟩ := step_cases h
  · exact .inl (congrArg Elements.irqOut (hostTurn_elements h))
  · exact .inl rfl
  · exact .inl (State.takeFault_irqOut _ f c)
  · have hword := encodeOfDecodeIsTheCommand c i hdec
    obtain ⟨o, -, -, -, -, -, rfl⟩ := decodeCommand_ok hdec
    by_cases ho : o = .checkEdge
    · subst ho
      obtain hsame | ⟨l, hline, hwatched, hchanged, rfl⟩ := exec_checkEdge_irqOut h
      · exact .inl hsame
      · have hc : Opcode.checkEdge.command (lineIdx l) 0 = c := by rw [hline]; exact Code.command.inj hword
        obtain ⟨hresponse, hirqs, hentry⟩ := checkLine_effect { s with bus := rest } l
        rw [if_pos hchanged] at hresponse hirqs
        exact .inr ⟨l, rest, by rw [hbus, hc], hwatched, hchanged, hirqs, hentry, hresponse⟩
    · exact .inl ((exec_instr_writes h).irqOut_eq ho)

/-! ### One dispatch (42_interrupt_dispatcher R165, R169; 45_orchestrator R216) -/

/-- The checks of the lines of a list, one after the other. -/
def State.checkLines (s : State) (ls : List (Fin 64)) : State := ls.foldl State.checkLine s

@[simp] theorem checkLines_nil (s : State) : s.checkLines [] = s := rfl

@[simp] theorem checkLines_cons (s : State) (l : Fin 64) (ls : List (Fin 64)) :
    s.checkLines (l :: ls) = (s.checkLine l).checkLines ls := rfl

/-- What every check leaves unchanged, a list of checks leaves unchanged. -/
theorem checkLines_unchanged {α : Type} (f : State → α) (hf : ∀ s l, f (s.checkLine l) = f s) (s : State)
    (ls : List (Fin 64)) : f (s.checkLines ls) = f s := by
  induction ls generalizing s with
  | nil => rfl
  | cons l ls ih => exact (ih (s.checkLine l)).trans (hf s l)

theorem checkLines_readLine_of_not_mem {ls : List (Fin 64)} {k : Fin 64} (s : State) (h : k ∉ ls) :
    (s.checkLines ls).readLine k = s.readLine k := by
  induction ls generalizing s with
  | nil => rfl
  | cons l ls ih =>
    exact (ih _ (List.not_mem_of_not_mem_cons h)).trans (checkLine_readLine_ne s (List.ne_of_not_mem_cons h))

/-- Every checked line's entry holds the register's value in the end. -/
theorem checkLines_readLine_of_mem {ls : List (Fin 64)} {k : Fin 64} (s : State) (h : k ∈ ls) :
    (s.checkLines ls).readLine k = .seen (s.readGpio k) := by
  induction ls generalizing s with
  | nil => cases h
  | cons l ls ih =>
    by_cases hmem : k ∈ ls
    · exact (ih _ hmem).trans (by rw [checkLine_readGpio])
    · obtain rfl : k = l := (List.mem_cons.1 h).resolve_right hmem
      obtain ⟨-, -, hentry⟩ := checkLine_effect s k
      exact (checkLines_readLine_of_not_mem _ hmem).trans hentry

/-- The checks of different lines emit the events of those that changed, in the order of the checks: what the first check does
is not seen by the later ones. -/
theorem checkLines_irqOut {ls : List (Fin 64)} (s : State) (h : ls.Nodup) :
    (s.checkLines ls).irqOut = s.irqOut ++ (ls.filter (changed s)).map fun l => ⟨s.irqOf l⟩ := by
  induction ls generalizing s with
  | nil => simp
  | cons l ls ih =>
    obtain ⟨hmem, hnodup⟩ := List.nodup_cons.1 h
    obtain ⟨-, hfirst, -⟩ := checkLine_effect s l
    have hlater : ls.filter (changed (s.checkLine l)) = ls.filter (changed s) :=
      List.filter_congr fun k hk => changed_checkLine_ne s (ne_of_mem_of_not_mem hk hmem)
    simp only [checkLines_cons, ih _ hnodup, hlater, hfirst, checkLine_irqOf]
    by_cases hchanged : changed s l = true
    · simp [hchanged]
    · simp [hchanged]

theorem toNat_lineIdx (l : Fin 64) : (lineIdx l).toNat = l.val := by
  simp only [lineIdx, BitVec.toNat_ofNat]
  omega

/-- The state with other commands waiting. -/
def State.setBus (s : State) (cs : List Command) : State := { s with bus := cs }

/-- A check does not depend on which commands wait. -/
theorem checkLine_setBus (s : State) (cs : List Command) (l : Fin 64) :
    (s.setBus cs).checkLine l = (s.checkLine l).setBus cs := by
  rw [checkLine_eq, checkLine_eq]
  rfl

/-- The command of a watched line's check (45_orchestrator R211). -/
def checkCommand (l : Fin 64) : Command := Opcode.checkEdge.command (lineIdx l) 0

theorem dispatchCommands_eq (P : Params) : dispatchCommands P = P.watchOrder.map checkCommand := rfl

theorem decodeCommand_checkCommand (l : Fin 64) : decodeCommand (checkCommand l) = .ok (.checkEdge (lineIdx l)) :=
  decodeCommand_command (o := .checkEdge) ⟨nofun, fun _ => rfl⟩

theorem step_check {s : State} {l : Fin 64} {rest : List Command} (hlive : s.fault = 0) (hwatched : s.watched l = true)
    (hbus : s.bus = checkCommand l :: rest) : step s = .next ((s.setBus rest).checkLine l) :=
  calc step s
    _ = exec (.checkEdge (lineIdx l)) (s.setBus rest) := step_command hbus hlive (decodeCommand_checkCommand l)
    _ = .next ((s.setBus rest).checkLine l) :=
      exec_checkEdge_line (s := s.setBus rest) hlive (toNat_lineIdx l).symm hwatched

/-- As many steps as watched lines that wait to be checked run all their checks. -/
theorem steps_checks {s : State} {ls : List (Fin 64)} {rest : List Command} (hlive : s.fault = 0)
    (hwatched : ∀ l ∈ ls, s.watched l = true) (hbus : s.bus = ls.map checkCommand ++ rest) :
    steps ls.length s = .next ((s.setBus rest).checkLines ls) := by
  induction ls generalizing s with
  | nil =>
    obtain rfl : s.bus = rest := hbus
    rfl
  | cons l ls ih =>
    obtain ⟨hfirst, hlater⟩ := List.forall_mem_cons.1 hwatched
    calc steps (l :: ls).length s
      _ = steps ls.length ((s.setBus (ls.map checkCommand ++ rest)).checkLine l) :=
        steps_of_step (step_check hlive hfirst hbus) ls.length
      _ = steps ls.length ((s.checkLine l).setBus (ls.map checkCommand ++ rest)) := by rw [checkLine_setBus]
      _ = .next (((s.checkLine l).setBus rest).checkLines ls) :=
        ih (s := (s.checkLine l).setBus (ls.map checkCommand ++ rest)) ((checkLine_fault s l).trans hlive)
          (fun k hk => (checkLine_watched s l k).trans (hlater k hk)) rfl
      _ = .next ((s.setBus rest).checkLines (l :: ls)) := by rw [checkLines_cons, checkLine_setBus]

/-- Settles O42: the steps are the checks of WATCH_ORDER (`steps_checks`), whose events and entries are
`checkLines_irqOut` and `checkLines_readLine_of_mem`. -/
theorem dispatchEmitsChangedLinesInWatchOrder : Obligations.DispatchEmitsChangedLinesInWatchOrder := by
  intro s rest hlive hnodup hbus
  rw [dispatchCommands_eq] at hbus
  set s' := s.setBus rest
  set ls := s.params.watchOrder
  have hsteps : steps ls.length s = .next (s'.checkLines ls) :=
    steps_checks hlive (fun l hl => decide_eq_true hl) hbus
  exact ⟨s'.checkLines ls, hsteps, checkLines_unchanged State.bus checkLine_bus s' ls,
    checkLines_unchanged State.gpio checkLine_gpio s' ls,
    (checkLines_unchanged State.fault checkLine_fault s' ls).trans hlive, checkLines_irqOut s' hnodup,
    fun l hl => checkLines_readLine_of_mem s' hl⟩

end Sys2Proof.Machine

/-! ## The nibbles of the wire form (O49, O50) -/

namespace Sys2Proof.Machine

theorem highNibble_eq_div (p : Byte) : p.extractLsb' 4 4 = BitVec.ofNat 4 (p.toNat / 16) := by
  apply BitVec.eq_of_toNat_eq
  rw [BitVec.extractLsb'_toNat, Nat.shiftRight_eq_div_pow, BitVec.toNat_ofNat]

theorem lowNibble_eq_mod (p : Byte) : p.extractLsb' 0 4 = BitVec.ofNat 4 (p.toNat % 16) := by
  apply BitVec.eq_of_toNat_eq
  rw [BitVec.extractLsb'_toNat, Nat.shiftRight_zero, BitVec.toNat_ofNat, Nat.mod_mod]

/-- A byte is its two nibbles (43_serial_frame_reader R188). -/
theorem highNibble_append_lowNibble (p : Byte) : p.extractLsb' 4 4 ++ p.extractLsb' 0 4 = p := by
  rw [BitVec.extractLsb'_append_extractLsb'_eq_extractLsb' (by decide), BitVec.extractLsb'_eq_self]

/-- Two brightness values side by side, as a number (R188). -/
theorem append_eq_ofNat (a b : Level) : a ++ b = BitVec.ofNat 8 (16 * a.toNat + b.toNat) := by
  have ha := a.isLt
  have hb := b.isLt
  apply BitVec.eq_of_toNat_eq
  rw [BitVec.toNat_append, ← Nat.shiftLeft_add_eq_or_of_lt hb, Nat.shiftLeft_eq, BitVec.toNat_ofNat]
  omega

/-- Settles O49: the first byte of the payload gives the first two values, and the other bytes the values after them. -/
theorem ledsAreTheNibblesHighFirst : Obligations.LedsAreTheNibblesHighFirst := by
  intro payload k h
  induction payload generalizing k with
  | nil => cases h
  | cons p ps ih =>
    cases k with
    | zero => exact ⟨congrArg some (highNibble_eq_div p), congrArg some (lowNibble_eq_mod p)⟩
    | succ k => exact ih k (Nat.lt_of_succ_lt_succ h)

theorem length_unpackLeds (bytes : List Byte) : (unpackLeds bytes).length = 2 * bytes.length := by
  induction bytes with
  | nil => rfl
  | cons p ps ih =>
    simp only [unpackLeds, List.length_cons, ih]
    omega

/-- Packing puts the two nibbles of each unpacked byte together again. -/
theorem packLeds_unpackLeds (bytes : List Byte) : packLeds (unpackLeds bytes) = bytes := by
  induction bytes with
  | nil => rfl
  | cons p ps ih => rw [unpackLeds, packLeds, ih, highNibble_append_lowNibble]

/-- Byte `k` of the packed values is made of the values at `2k` and `2k + 1`. -/
theorem packLeds_getElem? : ∀ {leds : List Level} {k : Nat} {a b : Level}, leds[2 * k]? = some a →
    leds[2 * k + 1]? = some b → (packLeds leds)[k]? = some (a ++ b)
  | [], _, _, _, ha, _ => nomatch ha
  | [_], _, _, _, _, hb => nomatch hb
  | _ :: _ :: _, 0, _, _, rfl, rfl => rfl
  | _ :: _ :: leds, _ + 1, _, _, ha, hb => packLeds_getElem? (leds := leds) ha hb

/-- Settles O50: `packLeds_getElem?` for the bytes; the round trips are `unpackLeds_packLeds` and `packLeds_unpackLeds`. -/
theorem nibblePackingRoundTrips : Obligations.NibblePackingRoundTrips := by
  refine ⟨fun leds h => ⟨?length, unpackLeds_packLeds (by rw [h]), fun k a b ha hb => ?byte⟩, fun _ => rfl,
    fun bytes h => ⟨?values, packLeds_unpackLeds bytes⟩⟩
  case length => rw [length_packLeds, h]
  case byte => rw [packLeds_getElem? ha hb, append_eq_ofNat]
  case values => rw [length_unpackLeds, h]

end Sys2Proof.Machine

/-! ## The serial frame reader (O17 to O24, O51)

A queue is unrecognised bytes followed either by a whole frame or by nothing or a partial frame (`queue_forms`), and what the
reader does in each form is one equation of `readFrame`. Every statement about NEXT_FRAME is one of these two equations, lifted
to the state by `exec_nextFrame`. -/

namespace Sys2Proof.Machine

/-! ### The two forms of a queue (43_serial_frame_reader R182, R185, R186) -/

/-- None of the bytes is the tag (R185). -/
def Unrecognised (junk : List Byte) : Prop := ∀ b ∈ junk, b ≠ tagQuad

/-- Nothing, or a tag with fewer than the 34 bytes that a frame has after it (R186). -/
def NoWholeFrame (tail : List Byte) : Prop := tail = [] ∨ ∃ r, tail = tagQuad :: r ∧ r.length < 34

theorem unrecognised_nil : Unrecognised [] := List.forall_mem_nil _

theorem Unrecognised.cons {b : Byte} {junk : List Byte} (hb : b ≠ tagQuad) (h : Unrecognised junk) :
    Unrecognised (b :: junk) :=
  List.forall_mem_cons.2 ⟨hb, h⟩

theorem readFrame_unrecognised {junk : List Byte} (h : Unrecognised junk) (q : List Byte) :
    readFrame (junk ++ q) = readFrame q := by
  induction junk with
  | nil => rfl
  | cons b junk ih =>
    obtain ⟨hb, hjunk⟩ := List.forall_mem_cons.1 h
    exact (readFrame_skip b (junk ++ q) hb).trans (ih hjunk)

/-- The reader returns the first whole frame and leaves what follows it. -/
theorem readFrame_wholeFrame {junk payload : List Byte} (x y : Byte) (rest : List Byte) (hjunk : Unrecognised junk)
    (hlen : payload.length = 32) :
    readFrame (junk ++ tagQuad :: x :: y :: (payload ++ rest)) = (some ⟨x, y, unpackLeds payload⟩, rest) := by
  have hbody : 32 ≤ (payload ++ rest).length := by simp [hlen]
  rw [readFrame_unrecognised hjunk, readFrame_frame x y _ hbody, List.take_left' hlen, List.drop_left' hlen]

/-- Without a whole frame the reader empties the queue. -/
theorem readFrame_noWholeFrame {junk tail : List Byte} (hjunk : Unrecognised junk) (htail : NoWholeFrame tail) :
    readFrame (junk ++ tail) = (none, []) := by
  rw [readFrame_unrecognised hjunk]
  obtain rfl | ⟨r, rfl, hshort⟩ := htail
  · rfl
  · exact readFrame_partial r hshort

/-- The 34 bytes after a tag are `x`, `y` and the payload (30_encoding R91). -/
theorem exists_payload {r : List Byte} (h : 34 ≤ r.length) :
    ∃ x y payload rest, payload.length = 32 ∧ r = x :: y :: (payload ++ rest) := by
  match r, h with
  | x :: y :: body, h =>
    have hbody : 32 ≤ body.length := by
      simp only [List.length_cons] at h
      omega
    exact ⟨x, y, body.take 32, body.drop 32, List.length_take_of_le hbody, by rw [List.take_append_drop]⟩

/-- Every queue has one of the two forms. -/
theorem queue_forms (q : List Byte) :
    (∃ junk payload rest x y, Unrecognised junk ∧ payload.length = 32
        ∧ q = junk ++ tagQuad :: x :: y :: (payload ++ rest))
      ∨ ∃ junk tail, Unrecognised junk ∧ NoWholeFrame tail ∧ q = junk ++ tail := by
  induction q with
  | nil => exact .inr ⟨[], [], unrecognised_nil, .inl rfl, rfl⟩
  | cons t r ih =>
    by_cases htag : t = tagQuad
    · subst htag
      rcases Nat.lt_or_ge r.length 34 with hshort | hlong
      · exact .inr ⟨[], tagQuad :: r, unrecognised_nil, .inr ⟨r, rfl, hshort⟩, rfl⟩
      · obtain ⟨x, y, payload, rest, hlen, rfl⟩ := exists_payload hlong
        exact .inl ⟨[], payload, rest, x, y, unrecognised_nil, hlen, rfl⟩
    · obtain ⟨junk, payload, rest, x, y, hjunk, hlen, rfl⟩ | ⟨junk, tail, hjunk, htail, rfl⟩ := ih
      · exact .inl ⟨t :: junk, payload, rest, x, y, hjunk.cons htag, hlen, rfl⟩
      · exact .inr ⟨t :: junk, tail, hjunk.cons htag, htail, rfl⟩

/-! ### NEXT_FRAME (R182, R187) -/

/-- On a live block NEXT_FRAME is the reader's answer for the queue. -/
theorem exec_nextFrame {s : State} {f : Option Quad} {q : List Byte} (hlive : s.fault = 0)
    (h : readFrame s.queue = (f, q)) :
    exec .nextFrame s = .next { s with queue := q, response := some (.host, .frame f) } :=
  calc execNextFrame s
    _ = .next s.runReader := whenLive_live _ _ hlive
    _ = .next { s with queue := q, response := some (.host, .frame f) } := by rw [State.runReader, h, State.respond]

/-- Settles O18: `readFrame_wholeFrame`. -/
theorem nextFrameReturnsTheFirstWholeFrame : Obligations.NextFrameReturnsTheFirstWholeFrame := by
  intro s junk payload rest x y hlive hjunk hlen hqueue
  exact exec_nextFrame hlive (hqueue ▸ readFrame_wholeFrame x y rest hjunk hlen)

/-- Settles O19: `readFrame_noWholeFrame`. -/
theorem nextFrameDropsJunkAndPartialFrames : Obligations.NextFrameDropsJunkAndPartialFrames := by
  intro s junk tail hlive hjunk htail hqueue
  exact exec_nextFrame hlive (hqueue ▸ readFrame_noWholeFrame hjunk htail)

/-- Settles O20: O18 and O19 answer the two forms, and every queue has one of them (`queue_forms`). -/
theorem nextFrameAnswersOnEveryQueue : Obligations.NextFrameAnswersOnEveryQueue := by
  intro s hlive
  obtain ⟨junk, payload, rest, x, y, hjunk, hlen, hqueue⟩ | ⟨junk, tail, hjunk, htail, hqueue⟩ := queue_forms s.queue
  · exact .inl ⟨junk, payload, rest, x, y, hjunk, hlen, hqueue,
      nextFrameReturnsTheFirstWholeFrame s junk payload rest x y hlive hjunk hlen hqueue⟩
  · exact .inr ⟨junk, tail, hjunk, htail, hqueue,
      nextFrameDropsJunkAndPartialFrames s junk tail hlive hjunk htail hqueue⟩

/-- Settles O21: the function is `readFrame`. -/
theorem nextFrameTouchesOnlyTheQueue : Obligations.NextFrameTouchesOnlyTheQueue :=
  ⟨readFrame, rfl, fun _ hlive => exec_nextFrame hlive rfl⟩

/-! ### FW_PUSH_BYTE (R181) -/

theorem setWidth_ofNat_toNat {b : Word32} (h : b.toNat ≤ 255) : (BitVec.ofNat 8 b.toNat).setWidth 32 = b := by
  apply BitVec.eq_of_toNat_eq
  simp only [BitVec.toNat_setWidth, BitVec.toNat_ofNat]
  omega

/-- Settles O17: an operand of at most 255 is a byte widened, whose push is `execFwPushByte_byte`. -/
theorem pushByteAppendsAtTheTail : Obligations.PushByteAppendsAtTheTail := by
  intro s b hlive hbyte hroom
  calc execFwPushByte b s
    _ = execFwPushByte ((BitVec.ofNat 8 b.toNat).setWidth 32) s := by rw [setWidth_ofNat_toNat hbyte]
    _ = .next ((s.pushQueue (BitVec.ofNat 8 b.toNat)).respond .firmware .ack) :=
      execFwPushByte_byte _ hlive (decide_eq_false hroom)

/-! ### The units of the stream as the reader's arms (R182; log entry 6) -/

theorem popQueue_append {s : State} {unit rest : List Byte} {k : Nat} (hk : unit.length = k)
    (hqueue : s.queue = unit ++ rest) : s.popQueue k = { s with queue := rest } := by
  rw [State.popQueue, hqueue, List.drop_left' hk]

/-- The reader drops an unrecognised byte at the head and runs on. -/
theorem runReader_unrecognised {s : State} {b : Byte} {rest : List Byte} (hb : b ≠ tagQuad) (hqueue : s.queue = b :: rest) :
    s.runReader = { s with queue := rest }.runReader := by
  rw [State.runReader, hqueue, readFrame_skip b rest hb]
  rfl

/-- The reader pops a whole frame at the head and returns it. -/
theorem runReader_quadrant {s : State} {x y : Byte} {payload rest : List Byte} (hlen : payload.length = 32)
    (hqueue : s.queue = tagQuad :: x :: y :: (payload ++ rest)) :
    s.runReader = (s.popQueue 35).respond .host (.frame (some ⟨x, y, unpackLeds payload⟩)) := by
  have hunit : (tagQuad :: x :: y :: payload).length = 35 := by simp [hlen]
  have hread : readFrame s.queue = (some ⟨x, y, unpackLeds payload⟩, rest) :=
    hqueue ▸ readFrame_wholeFrame x y rest unrecognised_nil hlen
  rw [State.runReader, hread, popQueue_append hunit hqueue]

/-- QUADRANT_UPDATE at the head of the queue is NEXT_FRAME, on a faulted block too. -/
theorem exec_quadrantUpdate {s : State} {x y : Byte} {payload rest : List Byte} (hlen : payload.length = 32)
    (hqueue : s.queue = tagQuad :: x :: y :: (payload ++ rest)) :
    exec (.quadrantUpdate x y payload) s = exec .nextFrame s :=
  calc execQuadrantUpdate x y payload s
    _ = whenLive s (.next s.runReader) := by rw [runReader_quadrant hlen hqueue, execQuadrantUpdate]

/-- UNRECOGNISED_BYTE at the head of the queue is NEXT_FRAME, on a faulted block too. -/
theorem exec_unrecognisedByte {s : State} {b : Byte} {rest : List Byte} (hb : b ≠ tagQuad) (hqueue : s.queue = b :: rest) :
    exec (.unrecognisedByte b) s = exec .nextFrame s :=
  calc execUnrecognisedByte b s
    _ = whenLive s (.next { s with queue := rest }.runReader) := by
      rw [execUnrecognisedByte, popQueue_append (unit := [b]) (k := 1) rfl hqueue]
    _ = whenLive s (.next s.runReader) := by rw [runReader_unrecognised hb hqueue]

/-- Settles O23: the unit is NEXT_FRAME (`exec_quadrantUpdate`), which finds the frame with no byte before it. -/
theorem quadrantUnitIsPoppedAndReturned : Obligations.QuadrantUnitIsPoppedAndReturned := by
  intro s x y payload rest hlive hlen hqueue
  rw [exec_quadrantUpdate hlen hqueue]
  exact nextFrameReturnsTheFirstWholeFrame s [] payload rest x y hlive unrecognised_nil hlen hqueue

/-- Settles O24: the unit is NEXT_FRAME (`exec_unrecognisedByte`), which reads the queue as it reads what follows the byte. -/
theorem unrecognisedUnitIsDroppedAlone : Obligations.UnrecognisedUnitIsDroppedAlone := by
  intro s b rest hlive hb hqueue
  have hunit : exec (.unrecognisedByte b) s =
      .next { s with queue := (readFrame rest).2, response := some (.host, .frame (readFrame rest).1) } := by
    rw [exec_unrecognisedByte hb hqueue]
    exact exec_nextFrame hlive (by rw [hqueue, readFrame_skip b rest hb])
  exact ⟨hunit.trans (exec_nextFrame (s := { s with queue := rest }) hlive rfl).symm, hunit⟩

/-- A unit at the head of the queue is a whole frame or one unrecognised byte (30_encoding R91, R94). -/
theorem decodeUnit_unit {q rest : List Byte} {i : Instr} (h : decodeUnit q = .unit i rest) :
    (∃ x y payload, i = .quadrantUpdate x y payload ∧ payload.length = 32
        ∧ q = tagQuad :: x :: y :: (payload ++ rest))
      ∨ ∃ b, i = .unrecognisedByte b ∧ b ≠ tagQuad ∧ q = b :: rest := by
  unfold decodeUnit at h
  split at h
  · cases h
  next t r =>
    split_ifs at h with htag
    · split at h
      next x y body =>
        split_ifs at h with hbody
        cases h
        exact .inl ⟨x, y, body.take 32, rfl, List.length_take_of_le hbody, by rw [htag, List.take_append_drop]⟩
      · cases h
    · cases h
      exact .inr ⟨t, rfl, htag, rfl⟩

/-- Settles O22: the two kinds of unit are `exec_quadrantUpdate` and `exec_unrecognisedByte`. -/
theorem serialUnitsAreTheReadersArms : Obligations.SerialUnitsAreTheReadersArms := by
  intro s i rest h
  obtain ⟨x, y, payload, rfl, hlen, hqueue⟩ | ⟨b, rfl, hb, hqueue⟩ := decodeUnit_unit h
  · exact exec_quadrantUpdate hlen hqueue
  · exact exec_unrecognisedByte hb hqueue

/-! ### A drain (30_encoding R97, 43_serial_frame_reader R191) -/

theorem drain_of_none {s t : State} {p : Port} (n : Nat) (h : exec .nextFrame s = .next t)
    (hresponse : t.response = some (p, .frame none)) : drain (n + 1) s = some ([], t) := by
  simp only [drain, h, hresponse]

theorem drain_of_frame {s t : State} {p : Port} {q : Quad} (n : Nat) (h : exec .nextFrame s = .next t)
    (hresponse : t.response = some (p, .frame (some q))) :
    drain (n + 1) s = (drain n t).map fun r => (q :: r.1, r.2) := by
  simp only [drain, h, hresponse]

/-- A whole frame has 35 bytes (30_encoding R91). -/
theorem length_wholeFrame {payload : List Byte} (hlen : payload.length = 32) (junk rest : List Byte) (x y : Byte) :
    (junk ++ tagQuad :: x :: y :: (payload ++ rest)).length = rest.length + junk.length + 35 := by
  simp only [List.length_append, List.length_cons, hlen]
  omega

/-- A drain ends with the queue empty once its commands outnumber the frames that the queue has bytes for: every command but
the last removes 35 bytes or more. -/
theorem drain_ends {n : Nat} {s : State} (hlive : s.fault = 0) (hn : s.queue.length < 35 * n) :
    ∃ frames t, drain n s = some (frames, t) ∧ t.queue = [] ∧ 35 * frames.length ≤ s.queue.length := by
  induction n generalizing s with
  | zero => exact absurd hn (Nat.not_lt_zero _)
  | succ n ih =>
    obtain ⟨junk, payload, rest, x, y, -, hlen, hqueue, hexec⟩ | ⟨-, -, -, -, -, hexec⟩ :=
      nextFrameAnswersOnEveryQueue s hlive
    · have hlength : s.queue.length = rest.length + junk.length + 35 := hqueue ▸ length_wholeFrame hlen junk rest x y
      have hfewer : rest.length < 35 * n := by omega
      obtain ⟨frames, t, hdrain, hempty, hcount⟩ := ih (s := { s with
        queue := rest, response := some (.host, .frame (some ⟨x, y, unpackLeds payload⟩)) }) hlive hfewer
      refine ⟨_ :: frames, t, (drain_of_frame n hexec rfl).trans (by rw [hdrain]; rfl), hempty, ?_⟩
      have hcount' : 35 * frames.length ≤ rest.length := hcount
      rw [List.length_cons]
      omega
    · exact ⟨[], _, drain_of_none n hexec rfl, rfl, Nat.zero_le _⟩

/-- Settles O51: the two answers of NEXT_FRAME (O20) give the bytes it removes, and `drain_ends` the drain. -/
theorem drainEndsWithinItsBound : Obligations.DrainEndsWithinItsBound := by
  intro s hlive
  constructor
  · obtain ⟨junk, payload, rest, x, y, hjunk, hlen, hqueue, hexec⟩ | ⟨-, -, -, -, -, hexec⟩ :=
      nextFrameAnswersOnEveryQueue s hlive
    · have hlength : s.queue.length = rest.length + junk.length + 35 := hqueue ▸ length_wholeFrame hlen junk rest x y
      have hless : rest.length < s.queue.length := by omega
      exact ⟨_, hexec, fun _ => hless, fun _ _ => ⟨junk, _, hjunk, hqueue, hlength.symm⟩⟩
    · exact ⟨_, hexec, List.length_pos_of_ne_nil, nofun⟩
  · obtain ⟨frames, t, hdrain, hempty, hcount⟩ := drain_ends (n := s.queue.length / 35 + 1) hlive (by omega)
    exact ⟨frames, t, hdrain, hempty, by omega⟩

end Sys2Proof.Machine

/-! ## The host's turns: what each presents (O60), one delivery (O58), the phases (O56), the drain (O59)

Where no command waits, presenting commands is setting the list of them. Each turn of a live block is one equation, and of all
steps only these turns move PHASE. -/

namespace Sys2Proof.Machine

section Turns

variable {s : State}

/-! ### The turn of each phase (45_orchestrator R211) -/

theorem present_of_bus_nil (hbus : s.bus = []) (cs : List Command) : s.present cs = { s with bus := cs } := by
  rw [State.present, hbus, List.nil_append]

theorem readOutputs_of_bus_nil (hbus : s.bus = []) (todo : List OutputRow) :
    s.readOutputs todo = { s with outTodo := todo, bus := todo.head?.toList.map outputCommand } := by
  rw [State.readOutputs, present_of_bus_nil hbus]

/-- Where no command waits the step is the host's turn. -/
theorem step_of_bus_nil (hbus : s.bus = []) : step s = hostTurn s := by
  rw [step, fetch_empty s hbus]

theorem step_idle_waiting (hlive : s.fault = 0) (hbus : s.bus = []) (hphase : s.phase = .idle) (hsamples : s.samples = []) :
    step s = .next s := by
  simp [step_of_bus_nil hbus, hostTurn, hlive, hphase, hsamples]

theorem step_idle_callback {d : Sample} {later : List Sample} (hlive : s.fault = 0) (hbus : s.bus = [])
    (hphase : s.phase = .idle) (hsamples : s.samples = d :: later) : step s = .next (s.beginCycle d later) := by
  simp [step_of_bus_nil hbus, hostTurn, hlive, hphase, hsamples]

theorem step_samplingInputs (hlive : s.fault = 0) (hbus : s.bus = []) (hphase : s.phase = .samplingInputs) :
    step s = .next s.beginDispatch := by
  simp [step_of_bus_nil hbus, hostTurn, hlive, hphase]

theorem step_dispatchingInterrupts (hlive : s.fault = 0) (hbus : s.bus = []) (hphase : s.phase = .dispatchingInterrupts) :
    step s = .next s.beginAdvance := by
  simp [step_of_bus_nil hbus, hostTurn, hlive, hphase]

theorem step_advancingClock (hlive : s.fault = 0) (hbus : s.bus = []) (hphase : s.phase = .advancingClock) :
    step s = .next s.beginFirmware := by
  simp [step_of_bus_nil hbus, hostTurn, hlive, hphase]

theorem step_runningFirmware (hlive : s.fault = 0) (hbus : s.bus = []) (hphase : s.phase = .runningFirmware) :
    step s = .next s.beginOutputs := by
  simp [step_of_bus_nil hbus, hostTurn, hlive, hphase]

/-- A read that was answered is written to its output, and the next read is issued (R219, R220). -/
theorem step_samplingOutputs_row {row : OutputRow} {rest : List OutputRow} {v : Word32} (hlive : s.fault = 0)
    (hbus : s.bus = []) (hphase : s.phase = .samplingOutputs) (htodo : s.outTodo = row :: rest)
    (hresponse : s.response = some (.host, .value32 v)) :
    step s = .next ({ s with outputs := setOutput (outputValue row v) s.outputs }.readOutputs rest) := by
  simp [step_of_bus_nil hbus, hostTurn, hlive, hphase, State.continueOutputs, htodo, hresponse]

theorem step_samplingOutputs_done (hlive : s.fault = 0) (hbus : s.bus = []) (hphase : s.phase = .samplingOutputs)
    (htodo : s.outTodo = []) : step s = .next s.beginDrain := by
  simp [step_of_bus_nil hbus, hostTurn, hlive, hphase, State.continueOutputs, htodo]

/-- A returned frame is delivered or lost, and the next is asked for (R222). -/
theorem step_drainingSerial_frame {q : Quad} (hlive : s.fault = 0) (hbus : s.bus = []) (hphase : s.phase = .drainingSerial)
    (hresponse : s.response = some (.host, .frame (some q))) :
    step s = .next ((s.deliver q).present [nextFrameCommand]) := by
  simp [step_of_bus_nil hbus, hostTurn, hlive, hphase, State.continueDrain, hresponse]

/-- No further frame ends the cycle (R225, R228). -/
theorem step_drainingSerial_none (hlive : s.fault = 0) (hbus : s.bus = []) (hphase : s.phase = .drainingSerial)
    (hresponse : s.response = some (.host, .frame none)) :
    step s = .next { s.enter .idle with current := Sample.none } := by
  simp [step_of_bus_nil hbus, hostTurn, hlive, hphase, State.continueDrain, hresponse]

end Turns

theorem nextFrameCommand_eq : nextFrameCommand = ⟨.host, 0x0900000000000000#64⟩ := rfl

/-- Settles O60: the turn of each phase, its commands presented to an empty list (`present_of_bus_nil`). -/
theorem hostPresentsTheCommandsOfEachPhase : Obligations.HostPresentsTheCommandsOfEachPhase := by
  intro s hlive hbus
  have presented (p : Phase) (cs : List Command) : (s.enter p).present cs = { s with phase := p, bus := cs } :=
    present_of_bus_nil (s := s.enter p) hbus cs
  refine ⟨step_idle_waiting hlive hbus, ?callback, ?dispatch, ?advance, ?firmware, ?outputs, ?row, ?drain,
    step_drainingSerial_none hlive hbus⟩
  case callback =>
    intro d later hphase hsamples
    rw [step_idle_callback hlive hbus hphase hsamples, State.beginCycle, presented]
    rfl
  case dispatch =>
    intro hphase
    rw [step_samplingInputs hlive hbus hphase, State.beginDispatch, presented]
    rfl
  case advance =>
    intro hphase
    rw [step_dispatchingInterrupts hlive hbus hphase, State.beginAdvance, presented]
    rfl
  case firmware =>
    intro hphase
    rw [step_advancingClock hlive hbus hphase, State.beginFirmware, presented]
    rfl
  case outputs =>
    intro hphase
    rw [step_runningFirmware hlive hbus hphase, State.beginOutputs, readOutputs_of_bus_nil (s := s.enter .samplingOutputs) hbus]
    rfl
  case row =>
    intro row rest v hphase htodo hresponse
    rw [step_samplingOutputs_row hlive hbus hphase htodo hresponse]
    exact congrArg _ (readOutputs_of_bus_nil (by exact hbus) rest)
  case drain =>
    intro hphase htodo
    rw [step_samplingOutputs_done hlive hbus hphase htodo, State.beginDrain, presented, nextFrameCommand_eq]

/-! ### One delivery (45_orchestrator R222, R223) -/

/-- What one draw of the connection leaves for the later ones, and the draw itself: the next one listed, or the free value of its
number where none is. -/
theorem accessoryPresent_draw {s : State} {present : Bool} {draws : List Bool}
    (h : s.current.presence = present :: draws
      ∨ (s.current.presence = [] ∧ draws = [] ∧ present = Config.accessoryPresent s.draws)) :
    s.accessoryPresent = present ∧ s.current.presence.tail = draws := by
  obtain hlisted | ⟨hnone, rfl, rfl⟩ := h
  · simp [State.accessoryPresent, hlisted]
  · simp [State.accessoryPresent, hnone]

/-- Settles O58: the turn delivers by the draw and presents NEXT_FRAME whatever the draw says. -/
theorem deliveryFollowsItsOwnDraw : Obligations.DeliveryFollowsItsOwnDraw := by
  intro s q present draws hlive hphase hbus hresponse hdraw
  obtain ⟨hpresent, hdraws⟩ := accessoryPresent_draw hdraw
  rw [step_drainingSerial_frame hlive hbus hphase hresponse, present_of_bus_nil (s := s.deliver q) hbus, State.deliver,
    hpresent, hdraws, nextFrameCommand_eq]

/-! ### The phases (45_orchestrator R210) -/

@[simp] theorem checkLine_phase (s : State) (l : Fin 64) : (s.checkLine l).phase = s.phase := by
  rw [checkLine_eq]
  rfl

@[simp] theorem State.beginCycle_phase (s : State) (d : Sample) (later : List Sample) :
    (s.beginCycle d later).phase = .samplingInputs := rfl
@[simp] theorem State.beginDispatch_phase (s : State) : s.beginDispatch.phase = .dispatchingInterrupts := rfl
@[simp] theorem State.beginAdvance_phase (s : State) : s.beginAdvance.phase = .advancingClock := rfl
@[simp] theorem State.beginFirmware_phase (s : State) : s.beginFirmware.phase = .runningFirmware := rfl
@[simp] theorem State.beginOutputs_phase (s : State) : s.beginOutputs.phase = .samplingOutputs := rfl
@[simp] theorem State.beginDrain_phase (s : State) : s.beginDrain.phase = .drainingSerial := rfl

/-- No command moves PHASE. -/
theorem exec_instr_phase {o : Opcode} {idx : Byte} {data : Word32} {s t : State}
    (h : exec (o.instr idx data) s = .next t) : t.phase = s.phase := by
  cases o with
  | setGpio | fwSetGpio => obtain rfl | ⟨f, rfl⟩ | ⟨l, -, -, rfl⟩ := setGpioOp_cases h <;> simp
  | getGpio | fwGetGpio => obtain rfl | ⟨f, rfl⟩ | ⟨l, -, rfl⟩ := getGpioOp_cases h <;> simp
  | setAdc => obtain rfl | ⟨f, rfl⟩ | ⟨ch, -, -, rfl⟩ := setAdcOp_cases h <;> simp
  | getAdc | fwGetAdc => obtain rfl | ⟨f, rfl⟩ | ⟨ch, -, rfl⟩ := getAdcOp_cases h <;> simp
  | fwSetDac => obtain rfl | ⟨f, rfl⟩ | ⟨ch, -, -, rfl⟩ := setDacOp_cases h <;> simp
  | getDac | fwGetDac => obtain rfl | ⟨f, rfl⟩ | ⟨ch, -, rfl⟩ := getDacOp_cases h <;> simp
  | checkEdge => obtain rfl | ⟨f, rfl⟩ | ⟨l, -, -, rfl⟩ := execCheckEdge_cases h <;> simp
  | advance => obtain rfl | rfl | rfl := execAdvance_cases h <;> simp
  | fwPushByte => obtain rfl | ⟨f, rfl⟩ | ⟨-, -, rfl⟩ := execFwPushByte_cases h <;> simp
  | nextFrame | fwReadTime =>
    obtain ⟨-, rfl⟩ | ⟨-, h⟩ := whenLive_cases h
    · rfl
    · cases h; rfl

/-- Settles O56: a step that takes a command keeps PHASE (`exec_instr_phase`), and each turn of the host enters the next phase
or stays in its own. -/
theorem phaseMovesOnlyToItsSuccessor : Obligations.PhaseMovesOnlyToItsSuccessor := by
  intro s t h
  obtain ⟨hbus, h⟩ | ⟨c, rest, -, ⟨-, rfl⟩ | ⟨-, f, -, rfl⟩ | ⟨-, i, hdec, h⟩⟩ := step_cases h
  · obtain ⟨-, ⟨-, -, rfl⟩ | ⟨_, _, hphase, -, rfl⟩ | ⟨hphase, rfl⟩ | ⟨hphase, rfl⟩ | ⟨hphase, rfl⟩ | ⟨hphase, rfl⟩
      | ⟨hphase, -, rfl⟩ | ⟨_, _, _, -, -, -, rfl⟩ | ⟨hphase, -, rfl⟩ | ⟨_, -, -, rfl⟩⟩ := hostTurn_cases h
    · exact .inl rfl
    · exact .inr ⟨hbus, by simp [hphase]⟩
    · exact .inr ⟨hbus, by simp [hphase]⟩
    · exact .inr ⟨hbus, by simp [hphase]⟩
    · exact .inr ⟨hbus, by simp [hphase]⟩
    · exact .inr ⟨hbus, by simp [hphase]⟩
    · exact .inr ⟨hbus, by simp [hphase]⟩
    · exact .inl rfl
    · exact .inr ⟨hbus, by simp [hphase]⟩
    · exact .inl rfl
  · exact .inl rfl
  · exact .inl (State.takeFault_phase _ f c)
  · obtain ⟨o, -, -, -, -, -, rfl⟩ := decodeCommand_ok hdec
    have hsame := exec_instr_phase h
    exact .inl hsame

/-! ### The drain (45_orchestrator R222, R226; 70_reset_and_hazards R293) -/

theorem step_nextFrame_of_readFrame {s : State} {rest : List Command} {f : Option Quad} {q : List Byte} (hlive : s.fault = 0)
    (hbus : s.bus = nextFrameCommand :: rest) (hread : readFrame s.queue = (f, q)) :
    step s = .next { s with bus := rest, queue := q, response := some (.host, .frame f) } := by
  rw [step_nextFrame hlive hbus, State.runReader, hread, State.respond]

/-- The drain phase with its NEXT_FRAME presented. -/
structure Draining (s : State) : Prop where
  live : s.fault = 0
  phase : s.phase = .drainingSerial
  bus : s.bus = [nextFrameCommand]

/-- The cycle that drained the queue of `s` is over, and nothing else of the block changed (R226). -/
structure DrainedFrom (s t : State) : Prop where
  phase : t.phase = .idle
  queue : t.queue = []
  bus : t.bus = []
  live : t.fault = 0
  gpio : t.gpio = s.gpio
  line : t.line = s.line
  time : t.time = s.time

/-- The state after one frame's two steps: the reader has returned the frame, and the host has delivered or lost it. -/
def State.afterFrame (s : State) (q : Quad) (rest : List Byte) : State :=
  { s with bus := [], queue := rest, response := some (.host, .frame (some q)) }.deliver q |>.present [nextFrameCommand]

/-- One frame takes two steps, the block's and the host's. -/
theorem steps_drain_frame {s : State} {q : Quad} {rest : List Byte} (hs : Draining s)
    (hread : readFrame s.queue = (some q, rest)) (k : Nat) : steps (k + 2) s = steps k (s.afterFrame q rest) :=
  (steps_of_step (step_nextFrame_of_readFrame hs.live hs.bus hread) (k + 1)).trans
    (steps_of_step (step_drainingSerial_frame (by exact hs.live) rfl (by exact hs.phase) rfl) k)

theorem Draining.afterFrame {s : State} (hs : Draining s) (q : Quad) (rest : List Byte) : Draining (s.afterFrame q rest) :=
  ⟨hs.live, hs.phase, rfl⟩

/-- The drain's last two steps end the cycle. -/
theorem steps_drain_none {s : State} (hs : Draining s) (hread : readFrame s.queue = (none, [])) :
    ∃ t, steps 2 s = .next t ∧ DrainedFrom s t :=
  ⟨_, (steps_of_step (step_nextFrame_of_readFrame hs.live hs.bus hread) 1).trans
    (steps_of_step (step_drainingSerial_none (by exact hs.live) rfl (by exact hs.phase) rfl) 0),
    rfl, rfl, rfl, hs.live, rfl, rfl, rfl⟩

/-- The drain ends within two steps for each command, once these outnumber the frames that the queue has bytes for. -/
theorem steps_drain_ends {n : Nat} {s : State} (hs : Draining s) (hn : s.queue.length < 35 * n) :
    ∃ k t, k ≤ 2 * n ∧ steps k s = .next t ∧ DrainedFrom s t := by
  induction n generalizing s with
  | zero => exact absurd hn (Nat.not_lt_zero _)
  | succ n ih =>
    obtain ⟨junk, payload, rest, x, y, hjunk, hlen, hqueue⟩ | ⟨junk, tail, hjunk, htail, hqueue⟩ := queue_forms s.queue
    · have hread := readFrame_wholeFrame x y rest hjunk hlen
      have hlength := length_wholeFrame hlen junk rest x y
      rw [← hqueue] at hread hlength
      have hfewer : rest.length < 35 * n := by omega
      obtain ⟨k, t, hk, hsteps, hdrained⟩ := ih (hs.afterFrame ⟨x, y, unpackLeds payload⟩ rest) hfewer
      exact ⟨k + 2, t, by omega, (steps_drain_frame hs hread k).trans hsteps,
        hdrained.phase, hdrained.queue, hdrained.bus, hdrained.live, hdrained.gpio, hdrained.line, hdrained.time⟩
    · obtain ⟨t, hsteps, hdrained⟩ := steps_drain_none hs (hqueue ▸ readFrame_noWholeFrame hjunk htail)
      exact ⟨2, t, by omega, hsteps, hdrained⟩

/-- Settles O59: `steps_drain_ends` with one command more than the queue has frames. -/
theorem drainPhaseEndsInIdle : Obligations.DrainPhaseEndsInIdle := by
  intro s hlive hphase hbus
  obtain ⟨k, t, hk, hsteps, h⟩ := steps_drain_ends (n := s.queue.length / 35 + 1) ⟨hlive, hphase, hbus⟩ (by omega)
  exact ⟨k, t, hk, hsteps, h.phase, h.queue, h.bus, h.live, h.gpio, h.line, h.time⟩

end Sys2Proof.Machine

/-! ## The host's maps: the command of an INPUT_MAP entry (O54) and the read of an OUTPUT_MAP entry (O55)

A row's register is a `Fin`, so its number as an IDX field is in range and names that register again. -/

namespace Sys2Proof.Machine

/-! ### The rows' commands on the block (45_orchestrator R211) -/

theorem toNat_channelIdx (c : Fin 2) : (channelIdx c).toNat = c.val := by
  simp only [channelIdx, BitVec.toNat_ofNat]
  omega

/-- A value in a wider field, cut to its own width, is itself. -/
theorem ofNat_toNat_setWidth_32 {w : Nat} (v : BitVec w) (hw : w ≤ 32) : BitVec.ofNat w (v.setWidth 32).toNat = v := by
  rw [BitVec.toNat_setWidth_of_le hw, BitVec.ofNat_toNat, BitVec.setWidth_eq]

section Registers

variable {s : State} {rest : List Command}

/-- SET_GPIO of a bit on a line (R214, R215). -/
theorem step_setGpio {l : Fin 64} {b : Bit} (hlive : s.fault = 0)
    (hbus : s.bus = Opcode.setGpio.command (lineIdx l) (b.setWidth 32) :: rest) :
    step s = .next { s with bus := rest, response := some (.host, .ack), gpio := s.gpio.set l.val b } := by
  have hline : (lineIdx l).toNat < 64 := (toNat_lineIdx l).trans_lt l.isLt
  have hbit : (b.setWidth 32).toNat ≤ 1 := by
    rw [BitVec.toNat_setWidth_of_le (by decide)]
    omega
  rw [step_command hbus hlive (decodeCommand_command (o := .setGpio) ⟨nofun, nofun⟩)]
  refine (setGpioOp_ok (s := { s with bus := rest }) hlive hline hbit).trans ?_
  simp only [toNat_lineIdx, ofNat_toNat_setWidth_32 b (by decide)]
  rfl

/-- SET_ADC of a 12-bit value on a channel (R213). -/
theorem step_setAdc {c : Fin 2} {v : BitVec 12} (hlive : s.fault = 0)
    (hbus : s.bus = Opcode.setAdc.command (channelIdx c) (v.setWidth 32) :: rest) :
    step s = .next { s with bus := rest, response := some (.host, .ack), adc := s.adc.set c.val v } := by
  have hchannel : (channelIdx c).toNat < 2 := (toNat_channelIdx c).trans_lt c.isLt
  have hvalue : (v.setWidth 32).toNat ≤ 4095 := by
    rw [BitVec.toNat_setWidth_of_le (by decide)]
    omega
  rw [step_command hbus hlive (decodeCommand_command (o := .setAdc) ⟨nofun, nofun⟩)]
  refine (setAdcOp_ok (s := { s with bus := rest }) hlive hchannel hvalue).trans ?_
  simp only [toNat_channelIdx, ofNat_toNat_setWidth_32 v (by decide)]
  rfl

/-- GET_GPIO of a line (R219). -/
theorem step_getGpio {l : Fin 64} (hlive : s.fault = 0) (hbus : s.bus = Opcode.getGpio.command (lineIdx l) 0 :: rest) :
    step s = .next { s with bus := rest, response := some (.host, .value32 ((s.readGpio l).setWidth 32)) } := by
  have hline : (lineIdx l).toNat < 64 := (toNat_lineIdx l).trans_lt l.isLt
  rw [step_command hbus hlive (decodeCommand_command (o := .getGpio) ⟨nofun, fun _ => rfl⟩)]
  refine (getGpioOp_ok (s := { s with bus := rest }) hlive hline).trans ?_
  simp only [toNat_lineIdx, BitVec.ofNat_toNat]
  rfl

/-- GET_DAC of a channel (R220). -/
theorem step_getDac {c : Fin 2} (hlive : s.fault = 0) (hbus : s.bus = Opcode.getDac.command (channelIdx c) 0 :: rest) :
    step s = .next { s with bus := rest, response := some (.host, .value32 ((s.readDac c).setWidth 32)) } := by
  have hchannel : (channelIdx c).toNat < 2 := (toNat_channelIdx c).trans_lt c.isLt
  rw [step_command hbus hlive (decodeCommand_command (o := .getDac) ⟨nofun, fun _ => rfl⟩)]
  refine (getDacOp_ok (s := { s with bus := rest }) hlive hchannel).trans ?_
  simp only [toNat_channelIdx, BitVec.ofNat_toNat]
  rfl

end Registers

/-! ### Inputs (45_orchestrator R212 to R215) -/

theorem buttonOf_eq (v : Word32) : buttonOf v = if mag32 v = 0 then 0 else 1 := by
  simp [buttonOf, eqZero32]

theorem levelOf_eq (i : HostInput) : levelOf i = if i.connected = true ∧ gtZero32 i.value = true then 1 else 0 := by
  simp [levelOf]

/-- Settles O54: each kind of entry is a SET_ADC or a SET_GPIO of its mapped value. -/
theorem inputEntryWritesItsMappedValue : Obligations.InputEntryWritesItsMappedValue := by
  intro s input row rest hlive hbus
  cases row with
  | knob n c => exact step_setAdc hlive hbus
  | button n l => simpa only [buttonOf_eq] using step_setGpio hlive hbus
  | jackDetect n l => exact step_setGpio hlive hbus
  | jackLevel n l => simpa only [levelOf_eq] using step_setGpio hlive hbus

/-! ### Outputs (45_orchestrator R219, R220) -/

/-- The value that the read of an output's register returns. -/
def State.readSource (s : State) : OutputSource → Word32
  | .gpio l => (s.readGpio l).setWidth 32
  | .dac c => (s.readDac c).setWidth 32

/-- The read of an OUTPUT_MAP entry answers its register's value. -/
theorem step_outputCommand {s : State} {row : OutputRow} {rest : List Command} (hlive : s.fault = 0)
    (hbus : s.bus = outputCommand row :: rest) :
    step s = .next { s with bus := rest, response := some (.host, .value32 (s.readSource row.source)) } := by
  obtain ⟨source, output⟩ := row
  cases source with
  | gpio l => exact step_getGpio hlive hbus
  | dac c => exact step_getDac hlive hbus

theorem gateVolts_bit (b : Bit) : gateVolts (b.setWidth 32) = ⟨if b = 1 then 524288 else 0⟩ := by
  revert b
  decide

theorem toNat_setWidth_dac (d : BitVec 16) : (d.setWidth 32).toNat = d.toNat := BitVec.toNat_setWidth_of_le (by decide)

/-- A trigger jack shows its line's bit as volts (log entry 13). -/
theorem outputValue_gpio (b : Bit) (l : Fin 64) (output : Nat) :
    outputValue ⟨.gpio l, output⟩ (b.setWidth 32) = ⟨output, ⟨if b = 1 then 524288 else 0⟩, none⟩ := by
  rw [outputValue, gateVolts_bit]

/-- A CV jack shows its channel's value as volts and light (log entries 13, 15). -/
theorem outputValue_dac (d : BitVec 16) (c : Fin 2) (output : Nat) :
    outputValue ⟨.dac c, output⟩ (d.setWidth 32) = ⟨output, ⟨10 * d.toNat⟩, some ⟨d.toNat⟩⟩ := by
  rw [outputValue, cvVolts, cvLight, toNat_setWidth_dac]

theorem outputValue_output (row : OutputRow) (v : Word32) : (outputValue row v).output = row.output := by
  obtain ⟨source, output⟩ := row
  cases source <;> rfl

/-- The output last written is the one found under its number. -/
theorem find?_setOutput (o : HostOutput) (os : List HostOutput) :
    (setOutput o os).find? (fun p => p.output = o.output) = some o := by
  induction os with
  | nil => simp [setOutput]
  | cons p ps ih =>
    by_cases hp : p.output = o.output
    · simp [setOutput, hp]
    · simpa [setOutput, hp] using ih

/-- Settles O55: the first step reads the register (`step_outputCommand`), the second writes what the read returned. -/
theorem outputEntryDrivesItsVolts : Obligations.OutputEntryDrivesItsVolts := by
  intro s row rest hlive hphase htodo hbus
  have hread := step_outputCommand hlive hbus
  have hwrite := step_samplingOutputs_row (s := { s with
    bus := [], response := some (.host, .value32 (s.readSource row.source)) }) hlive rfl hphase htodo rfl
  refine ⟨_, _, hread, hwrite, rfl, hlive, ?_⟩
  have hfound := find?_setOutput (outputValue row (s.readSource row.source)) s.outputs
  rw [outputValue_output] at hfound
  refine hfound.trans (congrArg some ?_)
  obtain ⟨source, output⟩ := row
  cases source with
  | gpio l => exact outputValue_gpio (s.readGpio l) l output
  | dac c => exact outputValue_dac (s.readDac c) c output

end Sys2Proof.Machine

/-! ## No command of the host has a fault (O57)

The check list reads the fields off the word's number; for an encoded command these are the opcode, the operands and zero. -/

namespace Sys2Proof

/-- The number of a command word (30_encoding R80). -/
theorem toNat_commandWord (op idx : Byte) (data : Word32) :
    (commandWord op idx data).toNat = op.toNat * 2 ^ 56 + idx.toNat * 2 ^ 48 + data.toNat := by
  have hidx := idx.isLt
  have hdata := data.isLt
  simp only [commandWord, BitVec.toNat_append, BitVec.toNat_ofNat]
  rw [← Nat.shiftLeft_add_eq_or_of_lt hdata, ← Nat.shiftLeft_add_eq_or_of_lt (by decide : 0 % 2 ^ 16 < 2 ^ 16),
    ← Nat.shiftLeft_add_eq_or_of_lt hidx]
  simp only [Nat.shiftLeft_eq]
  omega

theorem commandWord_op (op idx : Byte) (data : Word32) : (commandWord op idx data).toNat / 2 ^ 56 = op.toNat := by
  have := toNat_commandWord op idx data
  omega

theorem commandWord_idx (op idx : Byte) (data : Word32) :
    (commandWord op idx data).toNat / 2 ^ 48 % 256 = idx.toNat := by
  have := toNat_commandWord op idx data
  omega

theorem commandWord_rsv (op idx : Byte) (data : Word32) :
    (commandWord op idx data).toNat / 2 ^ 32 % 65536 = 0 := by
  have := toNat_commandWord op idx data
  omega

theorem commandWord_data (op idx : Byte) (data : Word32) :
    (commandWord op idx data).toNat % 2 ^ 32 = data.toNat := by
  have := toNat_commandWord op idx data
  omega

end Sys2Proof

namespace Sys2Proof.Machine

/-! ### The checks that each of the host's opcodes can fail (30_encoding R89) -/

theorem commandFault_setGpio (s : State) (line : Byte) (v : Word32) :
    commandFault s (Opcode.setGpio.command line v) = 
      if 63 < line.toNat then some .indexOutOfRange else if 1 < v.toNat then some .valueOutOfRange else none := by
  simp only [commandFault, Opcode.command, commandWord_op, commandWord_idx, commandWord_rsv, commandWord_data]
  simp [Opcode.port, Opcode.code]

theorem commandFault_setAdc (s : State) (channel : Byte) (v : Word32) :
    commandFault s (Opcode.setAdc.command channel v) = 
      if 1 < channel.toNat then some .indexOutOfRange else if 4095 < v.toNat then some .valueOutOfRange else none := by
  simp only [commandFault, Opcode.command, commandWord_op, commandWord_idx, commandWord_rsv, commandWord_data]
  simp [Opcode.port, Opcode.code]

theorem commandFault_getGpio (s : State) (line : Byte) :
    commandFault s (Opcode.getGpio.command line 0) = if 63 < line.toNat then some .indexOutOfRange else none := by
  simp only [commandFault, Opcode.command, commandWord_op, commandWord_idx, commandWord_rsv, commandWord_data]
  simp [Opcode.port, Opcode.code]

theorem commandFault_getDac (s : State) (channel : Byte) :
    commandFault s (Opcode.getDac.command channel 0) = if 1 < channel.toNat then some .indexOutOfRange else none := by
  simp only [commandFault, Opcode.command, commandWord_op, commandWord_idx, commandWord_rsv, commandWord_data]
  simp [Opcode.port, Opcode.code]

theorem commandFault_checkEdge (s : State) (line : Byte) :
    commandFault s (Opcode.checkEdge.command line 0) = 
      if 63 < line.toNat then some .indexOutOfRange
      else if ∀ l ∈ s.params.watchOrder, l.val ≠ line.toNat then some .unwatchedLine else none := by
  simp only [commandFault, Opcode.command, commandWord_op, commandWord_idx, commandWord_rsv, commandWord_data]
  simp [Opcode.port, Opcode.code]

theorem commandFault_advance (s : State) (e : Word32) :
    commandFault s (Opcode.advance.command 0 e) = if e = 0x7F800000#32 then some .nonFiniteElapsed else none := by
  simp only [commandFault, Opcode.command, commandWord_op, commandWord_idx, commandWord_rsv, commandWord_data]
  simp [Opcode.port, Opcode.code, ← BitVec.toNat_inj]

theorem commandFault_nextFrame (s : State) : commandFault s nextFrameCommand = none := by
  simp only [commandFault, nextFrameCommand, Opcode.command, commandWord_op, commandWord_idx, commandWord_rsv, commandWord_data]
  simp [Opcode.port, Opcode.code]

/-! ### The host's commands, each with its operands in range (45_orchestrator R224) -/

theorem not_lt_lineIdx (l : Fin 64) : ¬ 63 < (lineIdx l).toNat := by
  rw [toNat_lineIdx]
  omega

theorem not_lt_channelIdx (c : Fin 2) : ¬ 1 < (channelIdx c).toNat := by
  rw [toNat_channelIdx]
  omega

/-- A bit written to a line. -/
theorem commandFault_setGpio_bit (s : State) (l : Fin 64) (b : Bit) :
    commandFault s (Opcode.setGpio.command (lineIdx l) (b.setWidth 32)) = none := by
  have hbit : ¬ 1 < (b.setWidth 32).toNat := by
    rw [BitVec.toNat_setWidth_of_le (by decide)]
    omega
  rw [commandFault_setGpio, if_neg (not_lt_lineIdx l), if_neg hbit]

/-- A 12-bit value written to a channel. -/
theorem commandFault_setAdc_value (s : State) (c : Fin 2) (v : BitVec 12) :
    commandFault s (Opcode.setAdc.command (channelIdx c) (v.setWidth 32)) = none := by
  have hvalue : ¬ 4095 < (v.setWidth 32).toNat := by
    rw [BitVec.toNat_setWidth_of_le (by decide)]
    omega
  rw [commandFault_setAdc, if_neg (not_lt_channelIdx c), if_neg hvalue]

theorem commandFault_inputCommand (s : State) (input : Nat → HostInput) (row : InputRow) :
    commandFault s (inputCommand input row) = none := by
  cases row with
  | knob n c => exact commandFault_setAdc_value s c _
  | button n l | jackDetect n l | jackLevel n l => exact commandFault_setGpio_bit s l _

theorem commandFault_checkCommand {s : State} {l : Fin 64} (hwatched : l ∈ s.params.watchOrder) :
    commandFault s (checkCommand l) = none := by
  rw [checkCommand, commandFault_checkEdge, if_neg (not_lt_lineIdx l),
    if_neg fun hall => hall l hwatched (toNat_lineIdx l).symm]

theorem commandFault_advanceCommand (s : State) :
    commandFault s (advanceCommand s.params) =
      if recip32 s.params.sampleRate = 0x7F800000#32 then some .nonFiniteElapsed else none :=
  commandFault_advance s _

theorem commandFault_outputCommand (s : State) (row : OutputRow) : commandFault s (outputCommand row) = none := by
  obtain ⟨source, output⟩ := row
  cases source with
  | gpio l => rw [outputCommand, commandFault_getGpio, if_neg (not_lt_lineIdx l)]
  | dac c => rw [outputCommand, commandFault_getDac, if_neg (not_lt_channelIdx c)]

theorem mem_of_mem_append_of_nil {bus cs : List Command} {c : Command} (hbus : bus = []) (hc : c ∈ bus ++ cs) : c ∈ cs := by
  rwa [hbus, List.nil_append] at hc

/-- Settles O57: the turn presents only commands of the kinds above, or the firmware's on the other port. -/
theorem hostPresentsNoFaultingCommand : Obligations.HostPresentsNoFaultingCommand := by
  intro s t hbus _ hperiod h c hc hport
  rw [step_of_bus_nil hbus] at h
  obtain ⟨-, ⟨-, -, rfl⟩ | ⟨d, later, -, -, rfl⟩ | ⟨-, rfl⟩ | ⟨-, rfl⟩ | ⟨-, rfl⟩ | ⟨-, rfl⟩
    | ⟨-, -, rfl⟩ | ⟨row, rest, v, -, -, -, rfl⟩ | ⟨-, -, rfl⟩ | ⟨q, -, -, rfl⟩⟩ := hostTurn_cases h
  · exact absurd (hbus ▸ hc) List.not_mem_nil
  · obtain ⟨row, -, rfl⟩ := List.mem_map.1 (mem_of_mem_append_of_nil hbus hc)
    exact commandFault_inputCommand _ _ row
  · obtain ⟨l, hl, rfl⟩ := List.mem_map.1 (mem_of_mem_append_of_nil hbus hc)
    exact commandFault_checkCommand hl
  · obtain rfl := List.mem_singleton.1 (mem_of_mem_append_of_nil hbus hc)
    exact (commandFault_advanceCommand s.beginAdvance).trans (if_neg hperiod)
  · obtain ⟨w, -, rfl⟩ := List.mem_map.1 (mem_of_mem_append_of_nil hbus hc)
    cases hport
  · obtain ⟨row, -, rfl⟩ := List.mem_map.1 (mem_of_mem_append_of_nil hbus hc)
    exact commandFault_outputCommand _ row
  · obtain rfl := List.mem_singleton.1 (mem_of_mem_append_of_nil hbus hc)
    exact commandFault_nextFrame _
  · obtain ⟨row, -, rfl⟩ := List.mem_map.1 (mem_of_mem_append_of_nil hbus hc)
    exact commandFault_outputCommand _ row
  · exact absurd (hbus ▸ hc) List.not_mem_nil
  · obtain rfl := List.mem_singleton.1 (mem_of_mem_append_of_nil hbus hc)
    exact commandFault_nextFrame _

end Sys2Proof.Machine

/-! ## The analogue mapping (O53) and the sample period (O48)

Both are exact quotients. `adc_of` is the floor of a rational with a power of two below it. The reciprocal is rounded from a
quotient of 17 more bits with a sticky bit, which compares with every even number as the exact quotient does. -/

namespace Sys2Proof.Machine

/-! ### adc_of (45_orchestrator R213) -/

/-- The value clamped to 0 and 1, in units of 2^-149. -/
def clampedUnits (v : Word32) : Nat := if v.msb then 0 else min (units32 v) (2 ^ 149)

theorem clampedUnits_le (v : Word32) : clampedUnits v ≤ 2 ^ 149 := by
  unfold clampedUnits
  split
  · exact Nat.zero_le _
  · exact min_le_right _ _

/-- The units are those of the clamped value. -/
theorem clamp_value32 (v : Word32) : max 0 (min (value32 v) 1) = (clampedUnits v : ℚ) / 2 ^ 149 := by
  have hpos : (0 : ℚ) < 2 ^ 149 := by positivity
  cases hsign : v.msb with
  | true =>
    have hneg : value32 v ≤ 0 := by
      rw [value32, hsign, if_pos rfl, neg_one_mul, neg_div]
      exact neg_nonpos.2 (by positivity)
    simp [clampedUnits, hsign, hneg]
  | false =>
    have hvalue : value32 v = (units32 v : ℚ) / 2 ^ 149 := by
      rw [value32, hsign, if_neg Bool.false_ne_true, one_mul]
    have hone : (1 : ℚ) = 2 ^ 149 / 2 ^ 149 := (div_self hpos.ne').symm
    rw [max_eq_right (le_min (by rw [hvalue]; positivity) zero_le_one), hvalue, hone, min_div_div_right hpos.le,
      clampedUnits, hsign, if_neg Bool.false_ne_true]
    push_cast
    rfl

theorem adcOf_of_not_nan {v : Word32} (h : isNan32 v = false) :
    (adcOf v).toNat = (2 * 4095 * clampedUnits v + 2 ^ 149) / 2 ^ 150 := by
  have hle := clampedUnits_le v
  have hfits : (2 * 4095 * clampedUnits v + 2 ^ 149) / 2 ^ 150 < 2 ^ 12 := by omega
  simp only [adcOf, h, Bool.false_eq_true, if_false, Nat.shiftRight_eq_div_pow, Nat.one_shiftLeft, BitVec.toNat_ofNat]
  exact Nat.mod_eq_of_lt hfits

theorem isNan32_of_finite {v : Word32} (h : mag32 v < inf32) : isNan32 v = false := by
  simpa [isNan32] using h.le

theorem adcOf_of_finite {v : Word32} (h : mag32 v < inf32) :
    (adcOf v).toNat = ⌊4095 * max 0 (min (value32 v) 1) + 1 / 2⌋₊ := by
  have hquot : (4095 * max 0 (min (value32 v) 1) + 1 / 2 : ℚ)
      = ((2 * 4095 * clampedUnits v + 2 ^ 149 : Nat) : ℚ) / ((2 ^ 150 : Nat) : ℚ) := by
    rw [clamp_value32]
    push_cast
    field_simp
    ring
  rw [adcOf_of_not_nan (isNan32_of_finite h), hquot, Nat.floor_div_eq_div]

/-- Settles O53: `adcOf_of_finite`, which is monotone in the value since clamping and the floor are. -/
theorem adcMappingRoundsTheClampedProduct : Obligations.AdcMappingRoundsTheClampedProduct := by
  refine ⟨fun v => adcOf_of_finite, fun v hnan => if_pos hnan, by decide, by decide, fun v w hv hw hle => ?_⟩
  rw [adcOf_of_finite hv, adcOf_of_finite hw]
  gcongr

/-! ### 1 / SAMPLE_RATE (45_orchestrator R217) -/

/-- Twice the quotient, the lowest bit set where a remainder is left. -/
def stickyQuotient (n u : Nat) : Nat := 2 * (n / u) + (if n % u = 0 then 0 else 1)

/-- The sticky bit compares with an even number as twice the exact quotient does. -/
theorem stickyQuotient_lt_iff {n u : Nat} (hu : 0 < u) (e : Nat) : stickyQuotient n u < 2 * e ↔ n < e * u := by
  rw [stickyQuotient, ← Nat.div_lt_iff_lt_mul hu]
  split <;> omega

theorem lt_stickyQuotient_iff {n u : Nat} (hu : 0 < u) (e : Nat) : 2 * e < stickyQuotient n u ↔ e * u < n := by
  have hdiv := Nat.div_add_mod' n u
  have hmod := Nat.mod_lt n hu
  unfold stickyQuotient
  rcases Nat.lt_trichotomy e (n / u) with below | rfl | above
  · have := Nat.mul_le_mul_right u (show e + 1 ≤ n / u from below)
    rw [Nat.add_mul] at this
    split <;> omega
  · split <;> omega
  · have := Nat.mul_le_mul_right u (show n / u + 1 ≤ e from above)
    rw [Nat.add_mul] at this
    split <;> omega

/-- Rounding `n / u` from 17 more bits, the lowest a sticky one, rounds the exact quotient: every magnitude and every midpoint
of two is an even number of these smaller units. -/
theorem nearestEven_stickyQuotient {f maxMag n u : Nat} (hf : f ≠ 0) (hmax : maxMag % 2 = 0) (hu : 0 < u) :
    nearestEven f maxMag n u (roundMag (f + 1) maxMag (stickyQuotient (2 ^ 16 * n) u) 17) := by
  have below (e : Nat) : stickyQuotient (2 ^ 16 * n) u < e * 2 ^ 16 ↔ 2 * n < e * u := by
    have h := stickyQuotient_lt_iff (n := 2 ^ 16 * n) hu (2 ^ 15 * e)
    rw [Nat.mul_assoc] at h
    omega
  have above (e : Nat) : e * 2 ^ 16 < stickyQuotient (2 ^ 16 * n) u ↔ e * u < 2 * n := by
    have h := lt_stickyQuotient_iff (n := 2 ^ 16 * n) hu (2 ^ 15 * e)
    rw [Nat.mul_assoc] at h
    omega
  obtain ⟨a, up, hlo, hhi, hround, hup⟩ := roundMag_cases f maxMag (stickyQuotient (2 ^ 16 * n) u) 17
  simp only [hf, false_or] at hup
  rw [hround]
  have hlo' := below (2 * unitsOf f a)
  have hhi' := below (2 * unitsOf f (a + 1))
  have hmid := below (unitsOf f a + unitsOf f (a + 1))
  have hmid' := above (unitsOf f a + unitsOf f (a + 1))
  rw [Nat.mul_assoc 2 _ u] at hlo' hhi'
  refine nearestEven_of_neighbours hmax (by omega) (by omega) ?_
  rcases hup with ⟨hdown, hless⟩ | ⟨hup, hmore⟩ | ⟨htie, hle, heven⟩
  · exact .inl ⟨hdown, by omega⟩
  · exact .inr (.inl ⟨hup, by omega⟩)
  · exact .inr (.inr ⟨by omega, hle, heven⟩)

theorem toNat_pack32_false {m : Nat} (h : m ≤ inf32) : (pack32 false m).toNat = m := by
  unfold inf32 at h
  calc (BitVec.ofNat 32 m ||| 0#32).toNat
    _ = m % 2 ^ 32 := by rw [BitVec.or_zero, BitVec.toNat_ofNat]
    _ = m := Nat.mod_eq_of_lt (by omega)

theorem mag32_pack32_false {m : Nat} (h : m ≤ inf32) : mag32 (pack32 false m) = m := by
  rw [mag32, toNat_pack32_false h]
  unfold inf32 at h
  omega

theorem msb_pack32_false {m : Nat} (h : m ≤ inf32) : (pack32 false m).msb = false := by
  rw [BitVec.msb_eq_decide, toNat_pack32_false h]
  unfold inf32 at h
  exact decide_eq_false (by omega)

theorem units32_pos {x : Word32} (h : 0 < mag32 x) : 0 < units32 x := unitsOf_strictMono 23 h

theorem one_shiftLeft_add (j k : Nat) : 1 <<< (j + k) = 2 ^ j * 2 ^ k := by rw [Nat.one_shiftLeft, pow_add]

/-- The reciprocal of a finite positive value is the rounded quotient of `2^298` by its units. -/
theorem recip32_of_finite {x : Word32} (hpos : gtZero32 x = true) (hfin : mag32 x < inf32) :
    recip32 x = pack32 false (roundMag 24 inf32 (stickyQuotient (2 ^ 16 * 2 ^ 298) (units32 x)) 17) := by
  obtain ⟨hsign, hmag, -⟩ := (gtZero32_iff x).1 hpos
  have hinf : isInf32 x = false := decide_eq_false hfin.ne
  have hzero : eqZero32 x = false := decide_eq_false hmag.ne'
  have hbits : 1 <<< 314 = 2 ^ 16 * 2 ^ 298 := one_shiftLeft_add 16 298
  rw [recip32, isNan32_of_finite hfin, hinf, hzero, hsign, if_neg Bool.false_ne_true, if_neg Bool.false_ne_true,
    if_neg Bool.false_ne_true, ← hbits]
  rfl

/-- Settles O48: `nearestEven_stickyQuotient` for the quotient; the fault is that of an advance by the period (R257). -/
theorem samplePeriodIsTheNearestQuotient : Obligations.SamplePeriodIsTheNearestQuotient := by
  refine ⟨fun x hpos hfin => ?_, by decide, commandFault_advanceCommand⟩
  obtain ⟨-, hmag, -⟩ := (gtZero32_iff x).1 hpos
  have hle := roundMag_le 24 inf32 (stickyQuotient (2 ^ 16 * 2 ^ 298) (units32 x)) 17
  rw [recip32_of_finite hpos hfin, msb_pack32_false hle, mag32_pack32_false hle]
  exact ⟨rfl, nearestEven_stickyQuotient (by decide) (by decide) (units32_pos hmag)⟩

end Sys2Proof.Machine

/-! ## The faults of a command (O25 to O32)

Both the step and the check list of R89 are compared with one table: the checks that each opcode's operands can fail
(`operandFault`). The check list is the decoder's checks and then this table (`commandFault_of_opcode`); the meanings are built
from operand checks that each add one line of it (`ends_withLine` and its like). Every single fault of R252 to R258 is then a
line read off the list. -/

namespace Sys2Proof.Machine

/-! ### The check list and the decoder (30_encoding R89) -/

theorem toNat_idxField (w : Word64) : (idxField w).toNat = w.toNat / 2 ^ 48 % 256 := by
  simp only [idxField, BitVec.extractLsb'_toNat, Nat.shiftRight_eq_div_pow]

theorem toNat_rsvField (w : Word64) : (rsvField w).toNat = w.toNat / 2 ^ 32 % 65536 := by
  simp only [rsvField, BitVec.extractLsb'_toNat, Nat.shiftRight_eq_div_pow]

theorem toNat_dataField (w : Word64) : (dataField w).toNat = w.toNat % 2 ^ 32 := by
  simp only [dataField, BitVec.extractLsb'_toNat, Nat.shiftRight_zero]

/-- The fault of an opcode's operands on a block that has not faulted (R89, 60_exceptions R254 to R258). -/
def operandFault (s : State) (idx : Byte) (data : Word32) : Opcode → Option BlockFault
  | .setGpio | .fwSetGpio =>
    if 63 < idx.toNat then some .indexOutOfRange else if 1 < data.toNat then some .valueOutOfRange else none
  | .getGpio | .fwGetGpio => if 63 < idx.toNat then some .indexOutOfRange else none
  | .setAdc =>
    if 1 < idx.toNat then some .indexOutOfRange else if 4095 < data.toNat then some .valueOutOfRange else none
  | .fwSetDac =>
    if 1 < idx.toNat then some .indexOutOfRange else if 65535 < data.toNat then some .valueOutOfRange else none
  | .getAdc | .getDac | .fwGetAdc | .fwGetDac => if 1 < idx.toNat then some .indexOutOfRange else none
  | .checkEdge =>
    if 63 < idx.toNat then some .indexOutOfRange
    else if ∀ l ∈ s.params.watchOrder, l.val ≠ idx.toNat then some .unwatchedLine else none
  | .advance => if data = 0x7F800000#32 then some .nonFiniteElapsed else none
  | .fwPushByte =>
    if 255 < data.toNat then some .valueOutOfRange
    else if s.params.queueCapacity = some s.queue.length then some .queueOverflow else none
  | .nextFrame | .fwReadTime => none

/-- The OP numbers of the host port (R82), as the check list writes them. -/
abbrev hostNumbers : List Nat := [0x01, 0x02, 0x03, 0x04, 0x06, 0x07, 0x08, 0x09]

/-- The OP numbers of the firmware port (R82), as the check list writes them. -/
abbrev firmwareNumbers : List Nat := [0x11, 0x12, 0x14, 0x15, 0x16, 0x17, 0x18]

/-- An OP field outside the fifteen numbers of R82 is undefined (R87). -/
theorem not_mem_of_opcodeOf_none {op : Byte} (h : opcodeOf op = none) :
    op.toNat ∉ hostNumbers ∧ op.toNat ∉ firmwareNumbers := by
  have : ∀ op : Byte, opcodeOf op = none → op.toNat ∉ hostNumbers ∧ op.toNat ∉ firmwareNumbers := by decide
  exact this op h

/-- The check list gives an undefined opcode the fault that the decoder gives it. -/
theorem commandFault_of_undefined {c : Command} (s : State) (h : opcodeOf (opField c.word) = none) :
    commandFault s c = some .illegalCommand := by
  have hop := not_mem_of_opcodeOf_none h
  rw [toNat_opField] at hop
  exact if_pos hop

theorem code_mem_host_iff (o : Opcode) : o.code.toNat ∈ hostNumbers ↔ o.port = .host := by
  cases o <;> decide

theorem code_mem_firmware_iff (o : Opcode) : o.code.toNat ∈ firmwareNumbers ↔ o.port = .firmware := by
  cases o <;> decide

theorem code_mem_idxReserved_iff (o : Opcode) : o.code.toNat ∈ [0x08, 0x09, 0x17, 0x18] ↔ o.idxReserved = true := by
  cases o <;> decide

theorem code_mem_dataReserved_iff (o : Opcode) :
    o.code.toNat ∈ [0x02, 0x04, 0x06, 0x07, 0x09, 0x12, 0x14, 0x16, 0x18] ↔ o.dataReserved = true := by
  cases o <;> decide

theorem not_host_and_not_firmware (p : Port) : ¬(¬ p = .host ∧ ¬ p = .firmware) := by
  cases p with
  | host => exact fun h => h.1 rfl
  | firmware => exact fun h => h.2 rfl

theorem not_port_iff (p q : Port) : (p = .host ∧ ¬ q = .host) ∨ (p = .firmware ∧ ¬ q = .firmware) ↔ q ≠ p := by
  cases p with
  | host => simp
  | firmware => simp

/-- The check list of a defined opcode: the checks of the decoder, then those of its operands. -/
theorem commandFault_of_opcode {c : Command} {o : Opcode} (s : State) (h : opcodeOf (opField c.word) = some o) :
    commandFault s c =
      if o.port ≠ c.port then some .wrongPort
      else if rsvField c.word ≠ 0 then some .illegalCommand
      else if o.idxReserved = true ∧ idxField c.word ≠ 0 then some .illegalCommand
      else if o.dataReserved = true ∧ dataField c.word ≠ 0 then some .illegalCommand
      else operandFault s (idxField c.word) (dataField c.word) o := by
  have hop : c.word.toNat / 2 ^ 56 = o.code.toNat := by rw [code_of_opcodeOf h, toNat_opField, opNumber]
  have hzero {n : Nat} (x : BitVec n) : x.toNat ≠ 0 ↔ x ≠ 0 := by simp [← BitVec.toNat_inj]
  simp only [commandFault, hop, ← toNat_idxField, ← toNat_rsvField, ← toNat_dataField, code_mem_host_iff,
    code_mem_firmware_iff, code_mem_idxReserved_iff, code_mem_dataReserved_iff, if_neg (not_host_and_not_firmware o.port),
    not_port_iff, hzero]
  refine if_congr Iff.rfl rfl (if_congr Iff.rfl rfl (if_congr Iff.rfl rfl (if_congr Iff.rfl rfl ?operands)))
  case operands =>
    cases o with
    | advance => simp [Opcode.code, operandFault, ← BitVec.toNat_inj]
    | _ => simp [Opcode.code, operandFault]

/-- The check list gives a command that the decoder refuses the decoder's fault. -/
theorem commandFault_of_decode_error {c : Command} {f : BlockFault} (s : State) (h : decodeCommand c = .error f) :
    commandFault s c = some f := by
  unfold decodeCommand at h
  split at h
  next hop =>
    cases h
    exact commandFault_of_undefined s hop
  next o hop =>
    rw [commandFault_of_opcode s hop]
    split_ifs at h ⊢ <;> cases h <;> rfl

/-- The check list gives a command that the decoder accepts the fault of its operands. -/
theorem commandFault_of_decode_ok {c : Command} {i : Instr} (s : State) (h : decodeCommand c = .ok i) :
    ∃ (o : Opcode) (idx : Byte) (data : Word32), o.ReservedZero idx data ∧ c = o.command idx data
      ∧ i = o.instr idx data ∧ commandFault s c = operandFault s idx data o := by
  obtain ⟨o, hcode, hport, hrsv, hidx, hdata, rfl⟩ := decodeCommand_ok h
  have hop : opcodeOf (opField c.word) = some o := hcode ▸ opcodeOf_code o
  have hzero : o.ReservedZero (idxField c.word) (dataField c.word) := ⟨hidx, hdata⟩
  refine ⟨o, idxField c.word, dataField c.word, hzero, ?_, rfl, ?_⟩
  · rw [Opcode.command, hcode, hport, commandWord_fields hrsv]
  · rw [commandFault_of_opcode s hop, if_neg (not_not.2 hport), if_neg (not_not.2 hrsv),
      if_neg fun ⟨hr, hne⟩ => hne (hidx hr), if_neg fun ⟨hr, hne⟩ => hne (hdata hr)]

/-! ### How a command ends (60_exceptions R250, 30_encoding R85) -/

/-- How a command ends on a block that has not faulted: with its fault latched and nothing else changed, or without a fault and
with a response on its port. -/
def Ends (s : State) (c : Command) : Option BlockFault → Result → Prop
  | some f, r => r = .next (latched s (faultCode f) c.word (portBit c.port))
  | none, r => ∃ t v, r = .next t ∧ t.fault = 0 ∧ t.response = some (c.port, v)

/-- WATCHED as the check list reads it: no line of WATCH_ORDER has the number. -/
theorem watched_iff_not_all_ne (s : State) (l : Fin 64) :
    s.watched l = true ↔ ¬ ∀ k ∈ s.params.watchOrder, k.val ≠ l.val := by
  simp only [State.watched, decide_eq_true_eq, ne_eq, Fin.val_inj]
  exact ⟨fun hmem hall => hall l hmem rfl, fun h => by_contra fun hmem => h fun k hk hkl => hmem (hkl ▸ hk)⟩

section Ends

variable {s : State} {c : Command}

theorem ends_respond {t : State} (v : Response) (hlive : t.fault = 0) : Ends s c none (.next (t.respond c.port v)) :=
  ⟨_, v, rfl, hlive, rfl⟩

variable (hlive : s.fault = 0)
include hlive

theorem takeFault_eq_latched (f : BlockFault) :
    s.takeFault f c = latched s (faultCode f) c.word (portBit c.port) := s.takeFault_live f c hlive

theorem ends_takeFault (f : BlockFault) : Ends s c (some f) (.next (s.takeFault f c)) :=
  congrArg _ (takeFault_eq_latched hlive f)

theorem ends_whenLive {fault : Option BlockFault} {k : Result} (h : Ends s c fault k) : Ends s c fault (whenLive s k) := by
  rwa [whenLive_live s k hlive]

theorem ends_withLine {idx : Byte} {fault : Option BlockFault} {k : Fin 64 → Result}
    (h : ∀ l : Fin 64, l.val = idx.toNat → Ends s c fault (k l)) :
    Ends s c (if 63 < idx.toNat then some .indexOutOfRange else fault) (withLine c idx s k) := by
  by_cases hidx : 63 < idx.toNat
  · rw [if_pos hidx, withLine_trap c idx s k (by omega)]
    exact ends_takeFault hlive _
  · rw [if_neg hidx, withLine_ok c idx s k (by omega)]
    exact h _ rfl

theorem ends_withChannel {idx : Byte} {fault : Option BlockFault} {k : Fin 2 → Result} (h : ∀ ch, Ends s c fault (k ch)) :
    Ends s c (if 1 < idx.toNat then some .indexOutOfRange else fault) (withChannel c idx s k) := by
  by_cases hidx : 1 < idx.toNat
  · rw [if_pos hidx, withChannel_trap c idx s k (by omega)]
    exact ends_takeFault hlive _
  · rw [if_neg hidx, withChannel_ok c idx s k (by omega)]
    exact h _

theorem ends_withValue {max : Nat} {v : Word32} {fault : Option BlockFault} {k : Result} (h : Ends s c fault k) :
    Ends s c (if max < v.toNat then some .valueOutOfRange else fault) (withValue c max v s k) := by
  by_cases hv : max < v.toNat
  · rw [if_pos hv, withValue_trap c max v s k (by omega)]
    exact ends_takeFault hlive _
  · rw [if_neg hv, withValue_ok c max v s k (by omega)]
    exact h

/-! ### The meanings end as the table says -/

theorem setGpioOp_ends (idx : Byte) (v : Word32) :
    Ends s c (if 63 < idx.toNat then some .indexOutOfRange else if 1 < v.toNat then some .valueOutOfRange else none)
      (setGpioOp c idx v s) :=
  ends_whenLive hlive <| ends_withLine hlive fun _ _ => ends_withValue hlive <| ends_respond .ack hlive

theorem getGpioOp_ends (idx : Byte) :
    Ends s c (if 63 < idx.toNat then some .indexOutOfRange else none) (getGpioOp c idx s) :=
  ends_whenLive hlive <| ends_withLine hlive fun _ _ => ends_respond _ hlive

theorem setAdcOp_ends (idx : Byte) (v : Word32) :
    Ends s c (if 1 < idx.toNat then some .indexOutOfRange else if 4095 < v.toNat then some .valueOutOfRange else none)
      (setAdcOp c idx v s) :=
  ends_whenLive hlive <| ends_withChannel hlive fun _ => ends_withValue hlive <| ends_respond .ack hlive

theorem getAdcOp_ends (idx : Byte) :
    Ends s c (if 1 < idx.toNat then some .indexOutOfRange else none) (getAdcOp c idx s) :=
  ends_whenLive hlive <| ends_withChannel hlive fun _ => ends_respond _ hlive

theorem setDacOp_ends (idx : Byte) (v : Word32) :
    Ends s c (if 1 < idx.toNat then some .indexOutOfRange else if 65535 < v.toNat then some .valueOutOfRange else none)
      (setDacOp c idx v s) :=
  ends_whenLive hlive <| ends_withChannel hlive fun _ => ends_withValue hlive <| ends_respond .ack hlive

theorem getDacOp_ends (idx : Byte) :
    Ends s c (if 1 < idx.toNat then some .indexOutOfRange else none) (getDacOp c idx s) :=
  ends_whenLive hlive <| ends_withChannel hlive fun _ => ends_respond _ hlive

theorem execCheckEdge_ends (line : Byte) :
    Ends s (Opcode.checkEdge.command line 0)
      (if 63 < line.toNat then some .indexOutOfRange
        else if ∀ l ∈ s.params.watchOrder, l.val ≠ line.toNat then some .unwatchedLine else none)
      (execCheckEdge line s) := by
  refine ends_whenLive hlive <| ends_withLine hlive fun l hl => ?_
  rw [← hl]
  by_cases hall : ∀ k ∈ s.params.watchOrder, k.val ≠ l.val
  · rw [if_pos hall, if_neg fun hw => (watched_iff_not_all_ne s l).1 hw hall]
    exact ends_takeFault hlive _
  · obtain ⟨hresponse, -, -⟩ := checkLine_effect s l
    rw [if_neg hall, if_pos ((watched_iff_not_all_ne s l).2 hall)]
    exact ⟨_, _, rfl, (checkLine_fault s l).trans hlive, hresponse⟩

theorem execAdvance_ends (e : Word32) :
    Ends s (Opcode.advance.command 0 e) (if e = 0x7F800000#32 then some .nonFiniteElapsed else none) (execAdvance e s) := by
  by_cases he : e = 0x7F800000#32
  · subst he
    exact ends_whenLive hlive (ends_takeFault hlive _)
  · rw [if_neg he]
    exact ⟨_, _, exec_advance_live hlive he, hlive, rfl⟩

theorem execFwPushByte_ends (b : Word32) :
    Ends s (Opcode.fwPushByte.command 0 b)
      (if 255 < b.toNat then some .valueOutOfRange
        else if s.params.queueCapacity = some s.queue.length then some .queueOverflow else none)
      (execFwPushByte b s) := by
  refine ends_whenLive hlive <| ends_withValue hlive ?_
  by_cases hfull : s.params.queueCapacity = some s.queue.length
  · rw [if_pos hfull, State.queueFull, decide_eq_true hfull]
    exact ends_takeFault hlive _
  · rw [if_neg hfull, State.queueFull, decide_eq_false hfull]
    exact ⟨_, _, rfl, hlive, rfl⟩

/-- The meaning of a command's instruction ends as the table says for its operands. -/
theorem exec_instr_ends {o : Opcode} {idx : Byte} {data : Word32} (hzero : o.ReservedZero idx data) :
    Ends s (o.command idx data) (operandFault s idx data o) (exec (o.instr idx data) s) := by
  obtain ⟨hidx, hdata⟩ := hzero
  cases o with
  | setGpio | fwSetGpio => exact setGpioOp_ends hlive idx data
  | setAdc => exact setAdcOp_ends hlive idx data
  | fwSetDac => exact setDacOp_ends hlive idx data
  | getGpio | fwGetGpio => rw [hdata rfl]; exact getGpioOp_ends hlive idx
  | getAdc | fwGetAdc => rw [hdata rfl]; exact getAdcOp_ends hlive idx
  | getDac | fwGetDac => rw [hdata rfl]; exact getDacOp_ends hlive idx
  | checkEdge => rw [hdata rfl]; exact execCheckEdge_ends hlive idx
  | advance => rw [hidx rfl]; exact execAdvance_ends hlive data
  | fwPushByte => rw [hidx rfl]; exact execFwPushByte_ends hlive data
  | nextFrame | fwReadTime =>
    rw [hidx rfl, hdata rfl]
    exact ends_whenLive hlive ⟨_, _, rfl, hlive, rfl⟩

end Ends

/-! ### The step -/

/-- A faulted block refuses the first command, whatever it is (60_exceptions R250). -/
theorem step_refused {s : State} {c : Command} {rest : List Command} (hbus : s.bus = c :: rest) (hfault : s.fault ≠ 0) :
    step s = .next { s with bus := rest, response := none } := by
  obtain ⟨-, hfetch⟩ | ⟨hlive, -⟩ | ⟨hlive, -⟩ := fetch_command s c rest hbus
  · simp only [step, hfetch]
  · exact absurd hlive hfault
  · exact absurd hlive hfault

/-- A live block ends the first command as the check list says. -/
theorem step_ends {s : State} {c : Command} {rest : List Command} (hbus : s.bus = c :: rest) (hlive : s.fault = 0) :
    Ends { s with bus := rest } c (commandFault s c) (step s) := by
  have hlive' : { s with bus := rest }.fault = 0 := hlive
  obtain ⟨hfault, -⟩ | ⟨-, f, hdec, hfetch⟩ | ⟨-, i, hdec, -⟩ := fetch_command s c rest hbus
  · exact absurd hlive hfault
  · rw [commandFault_of_decode_error s hdec, step, hfetch]
    exact ends_takeFault hlive' f
  · rw [step_command hbus hlive hdec]
    obtain ⟨o, idx, data, hzero, rfl, rfl, hlist⟩ := commandFault_of_decode_ok s hdec
    rw [hlist]
    exact exec_instr_ends hlive' hzero

theorem step_fault {s : State} {c : Command} {rest : List Command} {f : BlockFault} (hbus : s.bus = c :: rest)
    (hlive : s.fault = 0) (hf : commandFault s c = some f) :
    step s = .next (latched { s with bus := rest } (faultCode f) c.word (portBit c.port)) := by
  have hends := step_ends hbus hlive
  rwa [hf] at hends

theorem step_completes {s : State} {c : Command} {rest : List Command} (hbus : s.bus = c :: rest) (hlive : s.fault = 0)
    (hnone : commandFault s c = none) : ∃ t v, step s = .next t ∧ t.fault = 0 ∧ t.response = some (c.port, v) := by
  have hends := step_ends hbus hlive
  rwa [hnone] at hends

/-- Settles O32: `step_refused` and the two ways of `step_ends`. -/
theorem stepTakesTheFirstFaultOfTheCheckList : Obligations.StepTakesTheFirstFaultOfTheCheckList :=
  fun _ _ _ hbus => ⟨step_refused hbus, fun hlive => ⟨fun _ => step_fault hbus hlive, step_completes hbus hlive⟩⟩

/-! ### The faults of the decoder (R252, R253), read off the check list -/

/-- The opcodes of the two ports are different numbers (30_encoding R82). -/
theorem not_mem_firmware_of_mem_host {n : Nat} (h : n ∈ hostNumbers) : n ∉ firmwareNumbers := by
  have : ∀ n ∈ hostNumbers, n ∉ firmwareNumbers := by decide
  exact this n h

/-- Settles O30: the second check of the list, the first one passing because the opcode is defined. -/
theorem opcodeOnTheOtherPortFaults : Obligations.OpcodeOnTheOtherPortFaults := by
  intro s c rest hbus hlive
  constructor
  · intro hop hport
    have hother : opNumber c ∉ firmwareNumbers := not_mem_firmware_of_mem_host hop
    have hfault : commandFault s c = some .wrongPort := (if_neg fun h => h.1 hop).trans (if_pos (.inr ⟨hport, hother⟩))
    rw [step_fault hbus hlive hfault, hport]
    rfl
  · intro hop hport
    have hother : opNumber c ∉ hostNumbers := fun h => not_mem_firmware_of_mem_host h hop
    have hfault : commandFault s c = some .wrongPort := (if_neg fun h => h.2 hop).trans (if_pos (.inl ⟨hport, hother⟩))
    rw [step_fault hbus hlive hfault, hport]
    rfl

/-- An opcode of the command's own port passes the first two checks of the list, and a nonzero reserved field fails one of the
next three. -/
theorem commandFault_of_reserved {c : Command} (s : State)
    (hown : (c.port = .host ∧ opNumber c ∈ hostNumbers)
      ∨ (c.port = .firmware ∧ opNumber c ∈ firmwareNumbers))
    (hreserved : c.word.toNat / 2 ^ 32 % 65536 ≠ 0
      ∨ (opNumber c ∈ [0x08, 0x09, 0x17, 0x18] ∧ c.word.toNat / 2 ^ 48 % 256 ≠ 0)
      ∨ (opNumber c ∈ [0x02, 0x04, 0x06, 0x07, 0x09, 0x12, 0x14, 0x16, 0x18] ∧ c.word.toNat % 2 ^ 32 ≠ 0)) :
    commandFault s c = some .illegalCommand := by
  have hdefined : ¬(opNumber c ∉ hostNumbers
      ∧ opNumber c ∉ firmwareNumbers) := by
    rintro ⟨hhost, hfirmware⟩
    obtain ⟨-, hop⟩ | ⟨-, hop⟩ := hown
    · exact hhost hop
    · exact hfirmware hop
  have hport : ¬((c.port = .host ∧ opNumber c ∉ hostNumbers)
      ∨ (c.port = .firmware ∧ opNumber c ∉ firmwareNumbers)) := by
    obtain ⟨hp, hop⟩ | ⟨hp, hop⟩ := hown
    · simp [hp, hop]
    · simp [hp, hop]
  refine (if_neg hdefined).trans ((if_neg hport).trans ?_)
  rw [ite_eq_left_iff]
  intro hrsv
  rw [ite_eq_left_iff]
  intro hidx
  exact if_pos ((hreserved.resolve_left hrsv).resolve_left hidx)

/-- Settles O31: the first check of the list, and behind the port's check the three of the reserved fields, which have one
fault. -/
theorem undefinedOrReservedEncodingFaults : Obligations.UndefinedOrReservedEncodingFaults := by
  intro s c rest hbus hlive
  refine ⟨fun hop => ?_, fun hown hreserved => step_fault hbus hlive (commandFault_of_reserved s hown hreserved)⟩
  exact step_fault hbus hlive (if_pos (not_or.1 (mt List.mem_append.2 hop)))

/-! ### The faults of the operands (R254 to R258), read off the table -/

theorem exec_fault {s : State} {o : Opcode} {idx : Byte} {data : Word32} {f : BlockFault} (hlive : s.fault = 0)
    (hzero : o.ReservedZero idx data) (hf : operandFault s idx data o = some f) :
    exec (o.instr idx data) s = .next (latched s (faultCode f) (commandWord o.code idx data) (portBit o.port)) := by
  have hends := exec_instr_ends hlive hzero
  rwa [hf] at hends

/-- Settles O25: the first line of the table for each opcode with an index. -/
theorem indexAboveTheRangeFaults : Obligations.IndexAboveTheRangeFaults := by
  intro s idx v hlive
  constructor
  · intro hidx
    exact ⟨exec_fault (o := .setGpio) hlive ⟨nofun, nofun⟩ (if_pos hidx),
      exec_fault (o := .getGpio) hlive ⟨nofun, fun _ => rfl⟩ (if_pos hidx),
      exec_fault (o := .checkEdge) hlive ⟨nofun, fun _ => rfl⟩ (if_pos hidx),
      exec_fault (o := .fwSetGpio) hlive ⟨nofun, nofun⟩ (if_pos hidx),
      exec_fault (o := .fwGetGpio) hlive ⟨nofun, fun _ => rfl⟩ (if_pos hidx)⟩
  · intro hidx
    exact ⟨exec_fault (o := .setAdc) hlive ⟨nofun, nofun⟩ (if_pos hidx),
      exec_fault (o := .getAdc) hlive ⟨nofun, fun _ => rfl⟩ (if_pos hidx),
      exec_fault (o := .getDac) hlive ⟨nofun, fun _ => rfl⟩ (if_pos hidx),
      exec_fault (o := .fwGetAdc) hlive ⟨nofun, fun _ => rfl⟩ (if_pos hidx),
      exec_fault (o := .fwSetDac) hlive ⟨nofun, nofun⟩ (if_pos hidx),
      exec_fault (o := .fwGetDac) hlive ⟨nofun, fun _ => rfl⟩ (if_pos hidx)⟩

/-- Settles O26: the line of the table behind the index's. -/
theorem valueAboveTheRangeFaults : Obligations.ValueAboveTheRangeFaults := by
  intro s idx v hlive
  refine ⟨fun hidx hv => ⟨?setGpio, ?fwSetGpio⟩, fun hidx hv => ?setAdc, fun hidx hv => ?fwSetDac, fun hv => ?fwPushByte⟩
  case setGpio => exact exec_fault (o := .setGpio) hlive ⟨nofun, nofun⟩ ((if_neg hidx.not_gt).trans (if_pos hv))
  case fwSetGpio => exact exec_fault (o := .fwSetGpio) hlive ⟨nofun, nofun⟩ ((if_neg hidx.not_gt).trans (if_pos hv))
  case setAdc => exact exec_fault (o := .setAdc) hlive ⟨nofun, nofun⟩ ((if_neg hidx.not_gt).trans (if_pos hv))
  case fwSetDac => exact exec_fault (o := .fwSetDac) hlive ⟨nofun, nofun⟩ ((if_neg hidx.not_gt).trans (if_pos hv))
  case fwPushByte => exact exec_fault (o := .fwPushByte) hlive ⟨fun _ => rfl, nofun⟩ (if_pos hv)

/-- Settles O27: no line of WATCH_ORDER has the index's number. -/
theorem checkOfAnUnwatchedLineFaults : Obligations.CheckOfAnUnwatchedLineFaults := by
  intro s line h hlive hunwatched
  have hall : ∀ l ∈ s.params.watchOrder, l.val ≠ line.toNat := fun l hl hval =>
    hunwatched ((Fin.ext hval : l = ⟨line.toNat, h⟩) ▸ hl)
  exact exec_fault (o := .checkEdge) hlive ⟨nofun, fun _ => rfl⟩ ((if_neg (by omega)).trans (if_pos hall))

/-- Settles O28: the table's one line for ADVANCE. -/
theorem advanceOfInfinityFaults : Obligations.AdvanceOfInfinityFaults :=
  fun _ hlive => exec_fault (o := .advance) hlive ⟨fun _ => rfl, nofun⟩ (if_pos rfl)

/-- Settles O29: the table's last line for FW_PUSH_BYTE, which an unbounded queue never meets. -/
theorem pushOnAFullQueueFaults : Obligations.PushOnAFullQueueFaults := by
  intro s b hlive
  have hzero : Opcode.fwPushByte.ReservedZero 0 b := ⟨fun _ => rfl, nofun⟩
  refine ⟨fun hbyte hfull => exec_fault hlive hzero ((if_neg hbyte.not_gt).trans (if_pos hfull)), fun hunbounded => ?_⟩
  by_cases hbyte : 255 < b.toNat
  · exact ⟨_, exec_fault hlive hzero (if_pos hbyte), (by decide : faultCode .valueOutOfRange ≠ 7)⟩
  · have hnone : operandFault s 0 b .fwPushByte = none := by simp [operandFault, hbyte, hunbounded]
    have hends := exec_instr_ends hlive hzero
    rw [hnone] at hends
    obtain ⟨t, -, hexec, hunfaulted, -⟩ := hends
    exact ⟨t, hexec, by rw [hunfaulted]; decide⟩

end Sys2Proof.Machine

/-! ## A faulted block (O33) and what a port confines (O38) -/

namespace Sys2Proof.Machine

/-! ### After the latch (60_exceptions R250) -/

/-- On a faulted block a step that answers only consumes a command: the host's turn does not answer. -/
theorem step_of_faulted {s t : State} (hfault : s.fault ≠ 0) (h : step s = .next t) :
    ∃ c rest, s.bus = c :: rest ∧ t = { s with bus := rest, response := none } := by
  obtain ⟨-, h⟩ | ⟨c, rest, hbus, ⟨-, rfl⟩ | ⟨hlive, -⟩ | ⟨hlive, -⟩⟩ := step_cases h
  · obtain ⟨hlive, -⟩ := hostTurn_cases h
    exact absurd hlive hfault
  · exact ⟨c, rest, hbus, rfl⟩
  · exact absurd hlive hfault
  · exact absurd hlive hfault

/-- Where `k + 1` steps answer, the first of them does. -/
theorem steps_succ_cases {k : Nat} {s t : State} (h : steps (k + 1) s = .next t) :
    ∃ u, step s = .next u ∧ steps k u = .next t := by
  unfold steps at h
  split at h
  next u hu => exact ⟨u, hu, h⟩
  · cases h
  · cases h

/-- Settles O33: by induction on the number of steps, each of which takes one command (`step_of_faulted`). -/
theorem faultedBlockStaysFrozen : Obligations.FaultedBlockStaysFrozen := by
  intro k
  induction k with
  | zero =>
    intro s t _ h
    cases h
    exact ⟨Nat.zero_le _, rfl⟩
  | succ k ih =>
    intro s t hfault h
    obtain ⟨u, hstep, hsteps⟩ := steps_succ_cases h
    obtain ⟨c, rest, hbus, rfl⟩ := step_of_faulted hfault hstep
    obtain ⟨hle, rfl⟩ := ih { s with bus := rest, response := none } t hfault hsteps
    refine ⟨?_, ?_⟩
    · rw [hbus]
      exact Nat.succ_le_succ hle
    · simp [hbus]

/-! ### What a port confines (R260, R262) -/

/-- The reader only takes bytes from the head of the queue (43_serial_frame_reader R182). -/
theorem readFrame_suffix (q : List Byte) : (readFrame q).2 <:+ q := by
  obtain ⟨junk, payload, rest, x, y, hjunk, hlen, rfl⟩ | ⟨junk, tail, hjunk, htail, rfl⟩ := queue_forms q
  · rw [readFrame_wholeFrame x y rest hjunk hlen]
    exact ⟨junk ++ tagQuad :: x :: y :: payload, by simp⟩
  · rw [readFrame_noWholeFrame hjunk htail]
    exact List.nil_suffix

theorem execNextFrame_queue {s t : State} (h : execNextFrame s = .next t) : t.queue <:+ s.queue := by
  obtain ⟨-, rfl⟩ | ⟨-, h⟩ := whenLive_cases h
  · exact List.suffix_rfl
  · cases h
    exact readFrame_suffix s.queue

theorem execFwPushByte_queue {b : Word32} {s t : State} (h : execFwPushByte b s = .next t) : s.queue <+: t.queue := by
  obtain rfl | ⟨f, rfl⟩ | ⟨-, -, rfl⟩ := execFwPushByte_cases h
  · exact List.prefix_rfl
  · rw [State.takeFault_queue]
  · exact List.prefix_append _ _

/-- Only NEXT_FRAME and FW_PUSH_BYTE own the queue. -/
theorem WritesOnlyOwn.queue_eq {o : Opcode} {a b : Elements} (h : WritesOnlyOwn o a b) (hnext : o ≠ .nextFrame)
    (hpush : o ≠ .fwPushByte) : b.queue = a.queue := by
  obtain ⟨-, -, -, -, -, -, hqueue⟩ := h.owner
  by_contra hne
  obtain hop | hop := hqueue hne
  · exact hnext (Opcode.code_injective (BitVec.eq_of_toNat_eq hop))
  · exact hpush (Opcode.code_injective (BitVec.eq_of_toNat_eq hop))

theorem code_ne_of_port_ne {o o' : Opcode} (h : o.port ≠ o'.port) : o.code.toNat ≠ o'.code.toNat := fun hop =>
  h (congrArg Opcode.port (Opcode.code_injective (BitVec.eq_of_toNat_eq hop)))

/-- DAC's owner is on the firmware port. -/
theorem WritesOnlyOwn.of_host {o : Opcode} {a b : Elements} (h : WritesOnlyOwn o a b) (hport : o.port = .host) :
    b.dac = a.dac := by
  obtain ⟨-, -, hdac, -, -, -, -⟩ := h.owner
  have hother : o.port ≠ Opcode.fwSetDac.port := by rw [hport]; decide
  exact by_contra fun hne => code_ne_of_port_ne hother (hdac hne)

/-- The owners of ADC, LINE, IRQ_OUT and TIME are on the host port. -/
theorem WritesOnlyOwn.of_firmware {o : Opcode} {a b : Elements} (h : WritesOnlyOwn o a b) (hport : o.port = .firmware) :
    b.adc = a.adc ∧ b.line = a.line ∧ b.irqOut = a.irqOut ∧ b.time = a.time := by
  obtain ⟨-, hadc, -, hline, hirqs, htime, -⟩ := h.owner
  have hother {o' : Opcode} (ho' : o'.port = .host) : o.code.toNat ≠ o'.code.toNat :=
    code_ne_of_port_ne (by rw [hport, ho']; decide)
  exact ⟨by_contra fun hne => hother (o' := .setAdc) rfl (hadc hne),
    by_contra fun hne => hother (o' := .checkEdge) rfl (hline hne),
    by_contra fun hne => hother (o' := .checkEdge) rfl (hirqs hne),
    by_contra fun hne => hother (o' := .advance) rfl (htime hne)⟩

/-- A host instruction leaves DAC, and only NEXT_FRAME takes bytes from the queue. -/
theorem exec_instr_host {o : Opcode} {idx : Byte} {data : Word32} {s t : State} (hport : o.port = .host)
    (h : exec (o.instr idx data) s = .next t) : t.dac = s.dac ∧ t.queue <:+ s.queue := by
  have hwrites := exec_instr_writes h
  refine ⟨hwrites.of_host hport, ?_⟩
  by_cases hnext : o = .nextFrame
  · subst hnext
    exact execNextFrame_queue h
  · have hsame : t.queue = s.queue := hwrites.queue_eq hnext (by rintro rfl; cases hport)
    exact hsame ▸ List.suffix_rfl

/-- A firmware instruction leaves ADC, LINE, IRQ_OUT and TIME, and only FW_PUSH_BYTE adds to the queue. -/
theorem exec_instr_firmware {o : Opcode} {idx : Byte} {data : Word32} {s t : State} (hport : o.port = .firmware)
    (h : exec (o.instr idx data) s = .next t) :
    (t.adc = s.adc ∧ t.line = s.line ∧ t.irqOut = s.irqOut ∧ t.time = s.time) ∧ s.queue <+: t.queue := by
  have hwrites := exec_instr_writes h
  refine ⟨hwrites.of_firmware hport, ?_⟩
  by_cases hpush : o = .fwPushByte
  · subst hpush
    exact execFwPushByte_queue h
  · have hsame : t.queue = s.queue := hwrites.queue_eq (by rintro rfl; cases hport) hpush
    exact hsame ▸ List.prefix_rfl

/-- A command on a port leaves every element, or it runs as an opcode of that port. -/
theorem step_command_cases {s t : State} {c : Command} {rest : List Command} (hbus : s.bus = c :: rest)
    (h : step s = .next t) :
    t.elements = s.elements
      ∨ ∃ (o : Opcode) (idx : Byte) (data : Word32), o.port = c.port
        ∧ exec (o.instr idx data) { s with bus := rest } = .next t := by
  obtain ⟨hnil, -⟩ | ⟨c', rest', hbus', hcases⟩ := step_cases h
  · cases hnil.symm.trans hbus
  · cases hbus'.symm.trans hbus
    obtain ⟨-, rfl⟩ | ⟨-, f, -, rfl⟩ | ⟨-, i, hdec, hexec⟩ := hcases
    · exact .inl rfl
    · exact .inl (State.elements_takeFault _ f c)
    · obtain ⟨o, -, hport, -, -, -, rfl⟩ := decodeCommand_ok hdec
      exact .inr ⟨o, _, _, hport, hexec⟩

/-- Settles O38: the command writes nothing, or its opcode's port says what it leaves (`exec_instr_host`,
`exec_instr_firmware`). -/
theorem portsConfineWhatACommandWrites : Obligations.PortsConfineWhatACommandWrites := by
  intro s t c rest hbus h
  obtain hsame | ⟨o, idx, data, hport, hexec⟩ := step_command_cases hbus h
  · simp only [State.elements, Elements.mk.injEq] at hsame
    obtain ⟨-, hadc, hdac, hline, hirqs, htime, hqueue⟩ := hsame
    exact ⟨fun _ => ⟨hdac, 0, hqueue⟩, fun _ => ⟨hadc, hline, hirqs, htime, hqueue ▸ List.prefix_rfl⟩⟩
  · constructor
    · intro hc
      obtain ⟨hdac, hqueue⟩ := exec_instr_host (hport.trans hc) hexec
      exact ⟨hdac, _, List.suffix_iff_eq_drop.1 hqueue⟩
    · intro hc
      obtain ⟨⟨hadc, hline, hirqs, htime⟩, hqueue⟩ := exec_instr_firmware (hport.trans hc) hexec
      exact ⟨hadc, hline, hirqs, htime, hqueue⟩

end Sys2Proof.Machine

/-! ## Every step keeps the parameters (O36) and the invariant (O34)

A step leaves the construction parameters and the fault registers as they are, unless it takes a fault (`step_fixed`). Each
clause of the invariant reads the parameters and one element of the block, so only the command that owns the element
(`WritesOnlyOwn`) has to be looked at. -/

namespace Sys2Proof.Machine

/-! ### What only a fault changes (60_exceptions R250, 70_reset_and_hazards R280) -/

/-- The construction parameters and the fault registers. -/
structure Fixed where
  params : Params
  fault : BitVec 8
  faultWord : Word64
  faultPort : Bit

/-- The parameters and the fault registers of a state. -/
def State.fixed (s : State) : Fixed := ⟨s.params, s.fault, s.faultWord, s.faultPort⟩

@[simp] theorem checkLine_fixed (s : State) (l : Fin 64) : (s.checkLine l).fixed = s.fixed := by
  rw [checkLine_eq]
  rfl

/-- The parameters and the fault registers stayed, or the parameters did and the block has faulted. -/
def FixedUnlessFaulted (s t : State) : Prop := t.fixed = s.fixed ∨ (t.params = s.params ∧ t.fault ≠ 0)

theorem FixedUnlessFaulted.params_eq {s t : State} (h : FixedUnlessFaulted s t) : t.params = s.params := by
  obtain hsame | ⟨hparams, -⟩ := h
  · exact congrArg Fixed.params hsame
  · exact hparams

theorem fixedUnlessFaulted_takeFault (s : State) (f : BlockFault) (c : Command) :
    FixedUnlessFaulted s (s.takeFault f c) :=
  .inr ⟨s.takeFault_params f c, s.takeFault_fault_ne_zero f c⟩

/-- Of an operation's cases the refusal and the fault are settled here, so that only the command's own effect is left. -/
theorem fixedUnlessFaulted_of_cases {s t : State} {c : Command} {effect : Prop}
    (h : t = s.refuse ∨ (∃ f, t = s.takeFault f c) ∨ effect) (heffect : effect → t.fixed = s.fixed) :
    FixedUnlessFaulted s t := by
  obtain rfl | ⟨f, rfl⟩ | h := h
  · exact .inl rfl
  · exact fixedUnlessFaulted_takeFault s f c
  · exact .inl (heffect h)

theorem exec_instr_fixed {o : Opcode} {idx : Byte} {data : Word32} {s t : State}
    (h : exec (o.instr idx data) s = .next t) : FixedUnlessFaulted s t := by
  cases o with
  | setGpio | fwSetGpio => exact fixedUnlessFaulted_of_cases (setGpioOp_cases h) fun ⟨_, _, _, ht⟩ => ht ▸ rfl
  | getGpio | fwGetGpio => exact fixedUnlessFaulted_of_cases (getGpioOp_cases h) fun ⟨_, _, ht⟩ => ht ▸ rfl
  | setAdc => exact fixedUnlessFaulted_of_cases (setAdcOp_cases h) fun ⟨_, _, _, ht⟩ => ht ▸ rfl
  | getAdc | fwGetAdc => exact fixedUnlessFaulted_of_cases (getAdcOp_cases h) fun ⟨_, _, ht⟩ => ht ▸ rfl
  | fwSetDac => exact fixedUnlessFaulted_of_cases (setDacOp_cases h) fun ⟨_, _, _, ht⟩ => ht ▸ rfl
  | getDac | fwGetDac => exact fixedUnlessFaulted_of_cases (getDacOp_cases h) fun ⟨_, _, ht⟩ => ht ▸ rfl
  | checkEdge => exact fixedUnlessFaulted_of_cases (execCheckEdge_cases h) fun ⟨l, _, _, ht⟩ => ht ▸ checkLine_fixed s l
  | fwPushByte => exact fixedUnlessFaulted_of_cases (execFwPushByte_cases h) fun ⟨_, _, ht⟩ => ht ▸ rfl
  | advance =>
    obtain rfl | rfl | rfl := execAdvance_cases h
    · exact .inl rfl
    · exact fixedUnlessFaulted_takeFault s _ _
    · exact .inl rfl
  | nextFrame | fwReadTime =>
    obtain ⟨-, rfl⟩ | ⟨-, h⟩ := whenLive_cases h
    · exact .inl rfl
    · cases h
      exact .inl rfl

/-- The host's turn latches no fault and moves no parameter. -/
theorem hostTurn_fixed {s t : State} (h : hostTurn s = .next t) : t.fixed = s.fixed := by
  obtain ⟨-, ⟨-, -, rfl⟩ | ⟨_, _, -, -, rfl⟩ | ⟨-, rfl⟩ | ⟨-, rfl⟩ | ⟨-, rfl⟩ | ⟨-, rfl⟩ | ⟨-, -, rfl⟩
    | ⟨_, _, _, -, -, -, rfl⟩ | ⟨-, -, rfl⟩ | ⟨_, -, -, rfl⟩⟩ := hostTurn_cases h <;> rfl

theorem step_fixed {s t : State} (h : step s = .next t) : FixedUnlessFaulted s t := by
  obtain ⟨-, h⟩ | ⟨c, rest, -, ⟨-, rfl⟩ | ⟨-, f, -, rfl⟩ | ⟨-, i, hdec, h⟩⟩ := step_cases h
  · exact .inl (hostTurn_fixed h)
  · exact .inl rfl
  · exact fixedUnlessFaulted_takeFault { s with bus := rest } f c
  · obtain ⟨o, -, -, -, -, -, rfl⟩ := decodeCommand_ok hdec
    have hfixed := exec_instr_fixed h
    exact hfixed

/-- Settles O36: `step_fixed`, a fault leaving the parameters too. -/
theorem noStepChangesTheParameters : Obligations.NoStepChangesTheParameters := fun _ _ h => (step_fixed h).params_eq

/-! ### The clauses on the elements -/

/-- A step leaves every element, or it runs an opcode's instruction. -/
theorem step_runs {s t : State} (h : step s = .next t) :
    t.elements = s.elements
      ∨ ∃ (o : Opcode) (idx : Byte) (data : Word32) (rest : List Command),
        exec (o.instr idx data) { s with bus := rest } = .next t := by
  cases hbus : s.bus with
  | nil =>
    rw [step_of_bus_nil hbus] at h
    exact .inl (hostTurn_elements h)
  | cons c rest =>
    obtain hsame | ⟨o, idx, data, -, hexec⟩ := step_command_cases hbus h
    · exact .inl hsame
    · exact .inr ⟨o, idx, data, rest, hexec⟩

theorem watched_congr {s t : State} (hparams : t.params = s.params) : t.watched = s.watched := by
  funext l
  rw [State.watched, State.watched, hparams]

/-- The clause on LINE reads WATCHED and the table alone. -/
theorem lineTableOk_congr {s t : State} (hparams : t.params = s.params) (hline : t.line = s.line) (hs : lineTableOk s) :
    lineTableOk t := by
  intro l hl
  rw [watched_congr hparams] at hl
  simpa only [State.readLine, hline] using hs l hl

/-- A queue that did not grow is within the capacity as before. -/
theorem queueOk_of_length_le {s t : State} (hparams : t.params = s.params) (hle : t.queue.length ≤ s.queue.length)
    (hs : queueOk s) : queueOk t := fun n hn => hle.trans (hs n (hparams ▸ hn))

/-- Of all opcodes only CHECK_EDGE's owns LINE. -/
theorem WritesOnlyOwn.line_eq {o : Opcode} {a b : Elements} (h : WritesOnlyOwn o a b) (ho : o ≠ .checkEdge) :
    b.line = a.line := by
  obtain ⟨-, -, -, hline, -, -, -⟩ := h.owner
  by_contra hne
  exact ho (Opcode.code_injective (BitVec.eq_of_toNat_eq (hline hne)))

/-- Of all opcodes only ADVANCE's owns TIME. -/
theorem WritesOnlyOwn.time_eq {o : Opcode} {a b : Elements} (h : WritesOnlyOwn o a b) (ho : o ≠ .advance) :
    b.time = a.time := by
  obtain ⟨-, -, -, -, -, htime, -⟩ := h.owner
  by_contra hne
  exact ho (Opcode.code_injective (BitVec.eq_of_toNat_eq (htime hne)))

/-- The check of a watched line leaves the entries of the unwatched ones. -/
theorem checkLine_lineTableOk {s : State} {l : Fin 64} (hwatched : s.watched l = true) (hs : lineTableOk s) :
    lineTableOk (s.checkLine l) := by
  intro k hk
  rw [checkLine_watched] at hk
  have hne : k ≠ l := by
    rintro rfl
    exact absurd hwatched (by simp [hk])
  rw [checkLine_readLine_ne s hne]
  exact hs k hk

theorem exec_instr_lineTableOk {o : Opcode} {idx : Byte} {data : Word32} {s t : State}
    (h : exec (o.instr idx data) s = .next t) (hs : lineTableOk s) : lineTableOk t := by
  by_cases ho : o = .checkEdge
  · subst ho
    obtain rfl | ⟨f, rfl⟩ | ⟨l, -, hwatched, rfl⟩ := execCheckEdge_cases h
    · exact hs
    · exact lineTableOk_congr (s.takeFault_params f _) (s.takeFault_line f _) hs
    · exact checkLine_lineTableOk hwatched hs
  · exact lineTableOk_congr (exec_instr_fixed h).params_eq ((exec_instr_writes h).line_eq ho) hs

theorem legalParams_timerScale {P : Params} (h : legalParams P = true) : isFinitePositive64 P.timerScale = true := by
  simp only [legalParams, Bool.and_eq_true] at h
  obtain ⟨⟨⟨⟨-, hscale⟩, -⟩, -⟩, -⟩ := h
  exact hscale

/-- ADVANCE of +infinity faults and writes no TIME; of any other operand it adds a value neither negative nor NaN. -/
theorem execAdvance_timeOk {e : Word32} {s t : State} (h : execAdvance e s = .next t)
    (hscale : isFinitePositive64 s.params.timerScale = true) (hs : timeOk s) : timeOk t := by
  obtain ⟨-, rfl⟩ | ⟨hlive, -⟩ := whenLive_cases h
  · exact hs
  by_cases he : e = 0x7F800000#32
  · subst he
    cases (advanceOfInfinityFaults s hlive).symm.trans h
    exact hs
  · cases (exec_advance_live hlive he).symm.trans h
    obtain ⟨-, hsum⟩ := le_fadd64 hs (scaledElapsed_le hscale he)
    exact hsum

theorem exec_instr_timeOk {o : Opcode} {idx : Byte} {data : Word32} {s t : State}
    (h : exec (o.instr idx data) s = .next t) (hscale : isFinitePositive64 s.params.timerScale = true) (hs : timeOk s) :
    timeOk t := by
  by_cases ho : o = .advance
  · subst ho
    exact execAdvance_timeOk h hscale hs
  · have hsame : t.time = s.time := (exec_instr_writes h).time_eq ho
    rwa [timeOk, hsame]

/-- A byte is pushed only where the queue is below its capacity (43_serial_frame_reader R181). -/
theorem execFwPushByte_queueOk {b : Word32} {s t : State} (h : execFwPushByte b s = .next t) (hs : queueOk s) : queueOk t := by
  obtain rfl | ⟨f, rfl⟩ | ⟨-, hroom, rfl⟩ := execFwPushByte_cases h
  · exact hs
  · exact queueOk_of_length_le (s.takeFault_params f _) (by simp) hs
  · intro n hn
    have hne : s.queue.length ≠ n := by
      rintro rfl
      exact of_decide_eq_false hroom hn
    have hlt : s.queue.length < n := (hs n hn).lt_of_ne hne
    simpa using hlt

theorem exec_instr_queueOk {o : Opcode} {idx : Byte} {data : Word32} {s t : State}
    (h : exec (o.instr idx data) s = .next t) (hs : queueOk s) : queueOk t := by
  have hparams := (exec_instr_fixed h).params_eq
  by_cases hpush : o = .fwPushByte
  · subst hpush
    exact execFwPushByte_queueOk h hs
  · by_cases hnext : o = .nextFrame
    · subst hnext
      exact queueOk_of_length_le hparams (execNextFrame_queue h).length_le hs
    · have hsame : t.queue = s.queue := (exec_instr_writes h).queue_eq hnext hpush
      exact queueOk_of_length_le hparams (by rw [hsame]) hs

theorem step_lineTableOk {s t : State} (h : step s = .next t) (hs : lineTableOk s) : lineTableOk t := by
  obtain hsame | ⟨o, idx, data, rest, hexec⟩ := step_runs h
  · exact lineTableOk_congr (step_fixed h).params_eq (congrArg Elements.line hsame) hs
  · exact exec_instr_lineTableOk hexec hs

theorem step_timeOk {s t : State} (h : step s = .next t) (hlegal : legalParams s.params = true) (hs : timeOk s) :
    timeOk t := by
  obtain hsame | ⟨o, idx, data, rest, hexec⟩ := step_runs h
  · have htime : t.time = s.time := congrArg Elements.time hsame
    rwa [timeOk, htime]
  · exact exec_instr_timeOk hexec (legalParams_timerScale hlegal) hs

theorem step_queueOk {s t : State} (h : step s = .next t) (hs : queueOk s) : queueOk t := by
  obtain hsame | ⟨o, idx, data, rest, hexec⟩ := step_runs h
  · exact queueOk_of_length_le (step_fixed h).params_eq (congrArg (·.queue.length) hsame).le hs
  · exact exec_instr_queueOk hexec hs

/-- The one new event that a step can add is a watched line's (O39). -/
theorem step_irqsOk {s t : State} (h : step s = .next t) (hs : irqsOk s) : irqsOk t := by
  have hparams := (step_fixed h).params_eq
  have hold (e : Irq) (he : e ∈ s.irqOut) : ∃ l, t.watched l = true ∧ e.number = t.irqOf l := by
    simpa only [watched_congr hparams, State.irqOf, hparams] using hs e he
  intro e he
  obtain hsame | ⟨l, rest, -, hwatched, -, hirqs, -, -⟩ := eventsComeOnlyFromTriggeredChecks s t h
  · exact hold e (hsame ▸ he)
  · rw [hirqs, List.mem_append, List.mem_singleton] at he
    obtain he | rfl := he
    · exact hold e he
    · exact ⟨l, by rwa [watched_congr hparams], by rw [State.irqOf, hparams]⟩

/-! ### The fault registers (10_state R33) -/

/-- No fault's code is 0, so on a live block the other fault registers are zero too. -/
theorem latchOk_of_live {s : State} (hs : latchOk s) (hlive : s.fault = 0) : s.faultWord = 0 ∧ s.faultPort = 0 := by
  obtain ⟨-, hword, hport⟩ | ⟨f, c, hcode, -, -, -⟩ := hs
  · exact ⟨hword, hport⟩
  · exact absurd (hcode.symm.trans hlive) (faultCode_ne_zero f)

/-- A faulted block keeps its registers and the command they name; a live one keeps its zeros, or latches the fault that the
check list gives the command it took (O32). -/
theorem step_latchOk {s t : State} (h : step s = .next t) (hs : latchOk s) : latchOk t := by
  by_cases hlive : s.fault = 0
  case neg =>
    obtain ⟨c, rest, -, rfl⟩ := step_of_faulted hlive h
    exact hs
  case pos =>
    obtain hsame | ⟨-, hfaulted⟩ := step_fixed h
    · obtain ⟨hword, hport⟩ := latchOk_of_live hs hlive
      exact .inl ⟨(congrArg Fixed.fault hsame).trans hlive, (congrArg Fixed.faultWord hsame).trans hword,
        (congrArg Fixed.faultPort hsame).trans hport⟩
    · cases hbus : s.bus with
      | nil =>
        rw [step_of_bus_nil hbus] at h
        exact absurd ((congrArg Fixed.fault (hostTurn_fixed h)).trans hlive) hfaulted
      | cons c rest =>
        cases hlist : commandFault s c with
        | none =>
          obtain ⟨u, -, hstep, hunfaulted, -⟩ := step_completes hbus hlive hlist
          cases hstep.symm.trans h
          exact absurd hunfaulted hfaulted
        | some f =>
          cases (step_fault hbus hlive hlist).symm.trans h
          exact .inr ⟨f, c, rfl, rfl, rfl, hlist⟩

/-- Settles O34: clause by clause, the parameters being the same. -/
theorem everyStepKeepsTheInvariant : Obligations.EveryStepKeepsTheInvariant := fun _ _ hs h =>
  { legal := (step_fixed h).params_eq ▸ hs.legal
    line := step_lineTableOk h hs.line
    time := step_timeOk h hs.legal hs.time
    queue := step_queueOk h hs.queue
    latch := step_latchOk h hs.latch
    irqs := step_irqsOk h hs.irqs }

end Sys2Proof.Machine
